-- ==== Sys2Proof/Word.lean ====
section
/-! DEFINITION. The word types of the block: a byte, a byte sequence and a bit (spec/00_scope.md R18). -/

namespace Sys2Proof

/-- An 8-bit unsigned value, bit 7 the most significant (R18, R66). -/
abbrev Byte := BitVec 8

/-- A byte sequence, index 0 first (R18, R65). -/
abbrev Bytes := List Byte

/-- A one-bit value: a sequence bit (R18, R26 to R28). -/
abbrev Bit := BitVec 1

end Sys2Proof
end

