-- ==== Sys2Proof/Config.lean ====
section
/-! DEFINITION. The build parameters the spec leaves to the implementation (spec/00_scope.md R16, decision D7). A
parameter is a natural number or unbounded (`none`), the choice R16 offers; `NT_W`, `TO_W` and `LEN_W` are taken
unbounded (natural numbers). The parameters stand in `State.params`, so that every statement about every state
holds for every value of them. -/

namespace Sys2Proof

/-- Implementation parameters (R16). -/
structure Params where
  /-- `MAX_PAYLOAD`: the largest payload length in bytes, or unbounded (`none`, the spec's default). -/
  maxPayload : Option Nat
  /-- `CNT_W`: the width in bits of the three statistics counters, or unbounded (`none`); R43. -/
  cntW : Option Nat
  deriving DecidableEq, Repr

end Sys2Proof
end

