-- ==== Sys2Proof/Syntax.lean ====
section
/-! DEFINITION. The instructions: one constructor per row of spec/opcode_table.json, in the table's order, with the
operand types they carry. -/

namespace Sys2Proof

/-- `role` (spec/10_state.md R21): Transmitter or Receiver. -/
inductive Role where
  | tx
  | rx
  deriving DecidableEq, Repr

/-- The status codes of `DONE` and of `err` (spec/60_exceptions.md R250). Codes 7 to 15 are never produced. -/
inductive Status where
  | ok
  /-- Reserved for a host wrapper; no transition of the block produces it (R251). -/
  | deviceError
  | connectionTimeout
  | disconnectTimeout
  | maxRetransmissionsExceeded
  | illegalCommand
  | payloadTooLong
  deriving DecidableEq, Repr

/-- The set `TIMED` of phases (spec/10_state.md R25): the operand of `StartTimed` (R171). -/
inductive TimedPhase where
  | openTxWaitUa
  | sendWaitAck
  | closeTxWaitDisc
  | closeRxWaitUa
  deriving DecidableEq, Repr

/-- The 58 rows of spec/opcode_table.json. -/
inductive Instr where
  -- Format S frames: the event is the arrival of the frame, `rxframe F` (R104).
  /-- `SET` (R90). -/
  | set
  /-- `UA.rx` (R91). -/
  | uaRx
  /-- `UA.tx` (R91). -/
  | uaTx
  /-- `DISC.tx` (R92). -/
  | discTx
  /-- `DISC.rx` (R92). -/
  | discRx
  /-- `RR0` (R93). -/
  | rr0
  /-- `RR1` (R93). -/
  | rr1
  /-- `REJ0` (R94). -/
  | rej0
  /-- `REJ1` (R94). -/
  | rej1
  -- Format I frames, by unstuffed payload.
  /-- `I0` (R95). -/
  | i0 (payload : Bytes)
  /-- `I1` (R95). -/
  | i1 (payload : Bytes)
  -- The generic rows, by sequence bit.
  /-- `RR(s)` (R93). -/
  | rrS (s : Bit)
  /-- `REJ(s)` (R94). -/
  | rejS (s : Bit)
  /-- `I(s)` (R95). -/
  | iS (s : Bit) (payload : Bytes)
  -- Stuffing pairs.
  /-- `ESC_FLAG` (R88). -/
  | escFlag
  /-- `ESC_ESC` (R88). -/
  | escEsc
  -- Host commands (R101).
  /-- `NOP` (R205). -/
  | nop
  /-- `OPEN` (R191). -/
  | openCmd (role : Role) (ntries timeout : Nat)
  /-- `SEND` (R220). -/
  | sendCmd (payload : Bytes)
  /-- `RECEIVE` (R225). -/
  | receiveCmd
  /-- `CLOSE` (R196). -/
  | closeCmd
  /-- `RESERVED_5` (R205). -/
  | reserved5
  /-- `RESERVED_6` (R205). -/
  | reserved6
  /-- `RESERVED_7` (R205). -/
  | reserved7
  -- Input events (R5).
  /-- `RXBYTE.sup` (R177). -/
  | rxbyteSup (b : Byte)
  /-- `RXBYTE.cap` (R226). -/
  | rxbyteCap (b : Byte)
  /-- `TICK` (R174). -/
  | tick
  /-- `EXPIRE` (R173). -/
  | expire
  /-- `RESET` (R290). -/
  | resetInput
  -- Functions and procedures (R120 to R126, R146, R155, R171 to R181, R206, R227).
  /-- `BCC1` (R120). -/
  | bcc1 (a c : Byte)
  /-- `BCC2` (R121). -/
  | bcc2 (payload : Bytes)
  /-- `STUFF` (R122). -/
  | stuff (bytes : Bytes)
  /-- `DESTUFF` (R123). -/
  | destuff (bytes : Bytes)
  /-- `ENC_SUP` (R124). -/
  | encSup (a c : Byte)
  /-- `ENC_INFO` (R125). -/
  | encInfo (s : Bit) (payload : Bytes)
  /-- `DEC_INFO` (R126). -/
  | decInfo (body : Bytes) (ovf : Bool)
  /-- `RecStep` (R146). -/
  | recStep (b : Byte)
  /-- `CapStep` (R155). -/
  | capStep (b : Byte)
  /-- `StartTimed` (R171). -/
  | startTimed (p : TimedPhase) (frame : Bytes)
  /-- `LoopCheck` (R172). -/
  | loopCheck
  /-- `CancelTimer` (R175). -/
  | cancelTimer
  /-- `Fail` (R176). -/
  | fail (e : Status)
  /-- `WriteFrame` (R181). -/
  | writeFrame (frame : Bytes)
  /-- `HandleAccept` (R206). -/
  | handleAccept (c : Byte)
  /-- `ProcessBody` (R227). -/
  | processBody (body : Bytes) (ovf : Bool)
  -- Accept rules.
  /-- `ACCEPT.UA@P_OPEN_TX_WAIT_UA` (R193). -/
  | acceptUaOpenTx
  /-- `ACCEPT.SET@P_OPEN_RX_WAIT_SET` (R195). -/
  | acceptSetOpenRx
  /-- `ACCEPT.DISC@P_CLOSE_TX_WAIT_DISC` (R198). -/
  | acceptDiscCloseTx
  /-- `ACCEPT.DISC@P_CLOSE_RX_WAIT_DISC` (R200). -/
  | acceptDiscCloseRx
  /-- `ACCEPT.UA@P_CLOSE_RX_WAIT_UA` (R201). -/
  | acceptUaCloseRx
  /-- `ACCEPT.RR(~ns)@P_SEND_WAIT_ACK` (R221). -/
  | acceptRrNext
  /-- `ACCEPT.REJ@P_SEND_WAIT_ACK` (R222): the REJ carries either sequence bit. -/
  | acceptRej (s : Bit)
  /-- `ACCEPT.RR(ns)@P_SEND_WAIT_ACK` (R223). -/
  | acceptRrSame
  -- Outcomes of a captured body.
  /-- `BODY.HeaderBad` (R228): the body and its overflow bit. -/
  | bodyHeaderBad (body : Bytes) (ovf : Bool)
  /-- `BODY.EscapeBad` (R229). -/
  | bodyEscapeBad (body : Bytes)
  /-- `BODY.ChecksumBad` (R230). -/
  | bodyChecksumBad (body : Bytes)
  /-- `BODY.Duplicate` (R231). -/
  | bodyDuplicate (body : Bytes)
  /-- `BODY.New` (R232). -/
  | bodyNew (body : Bytes)
  deriving DecidableEq, Repr

end Sys2Proof
end

