-- ==== Sys2Proof/Machine/Constants.lean ====
section
/-! DEFINITION. The protocol constants (spec/00_scope.md R17, spec/30_encoding.md R83 to R86), the eleven concrete
headers (R97) and the numeric codes of statuses and roles (R250, R21). -/

namespace Sys2Proof.Machine

/-- `FLAG`. -/
def flag : Byte := 0x7E
/-- `ESC`. -/
def esc : Byte := 0x7D
/-- `ESC_FLAG`: second byte of an escaped flag. -/
def escFlag : Byte := 0x5E
/-- `ESC_ESC`: second byte of an escaped escape. -/
def escEsc : Byte := 0x5D
/-- `A_TX`: address of Transmitter-origin frames (R83). -/
def aTx : Byte := 0x03
/-- `A_RX`: address of Receiver-origin frames (R83). -/
def aRx : Byte := 0x01
/-- `C_SET`. -/
def cSet : Byte := 0x03
/-- `C_DISC`. -/
def cDisc : Byte := 0x0B
/-- `C_UA`. -/
def cUa : Byte := 0x07
/-- `C_RR(s)`: the sequence bit in bit 7 (R85). -/
def cRR (s : Bit) : Byte := (s.zeroExtend 8 <<< 7) ||| 0x05
/-- `C_REJ(s)`: the sequence bit in bit 7 (R85). -/
def cRej (s : Bit) : Byte := (s.zeroExtend 8 <<< 7) ||| 0x01
/-- `C_I(s)`: the sequence bit in bit 6 (R85, 90_conflicts.md C1). -/
def cI (s : Bit) : Byte := s.zeroExtend 8 <<< 6
/-- The sequence bit of an I control byte, `C[6]` (R85). -/
def seqOfI (c : Byte) : Bit := (c >>> 6).truncate 1

/-- Numeric code of a status (R250). -/
def statusCode : Status → BitVec 4
  | .ok => 0
  | .deviceError => 1
  | .connectionTimeout => 2
  | .disconnectTimeout => 3
  | .maxRetransmissionsExceeded => 4
  | .illegalCommand => 5
  | .payloadTooLong => 6

/-- The fatal statuses a timed exchange can end with (R252 to R254): the operands `Fail` is called with. -/
def fatal : Status → Bool
  | .connectionTimeout | .disconnectTimeout | .maxRetransmissionsExceeded => true
  | .ok | .deviceError | .illegalCommand | .payloadTooLong => false

/-- Numeric code of a role, `cmd_role` (R21). -/
def roleCode : Role → Nat
  | .tx => 0
  | .rx => 1

/-- The control bytes the supervision recognizer can report (R36, R206). -/
def supervisionCtrls : List Byte :=
  [cUa, cSet, cRR 0, cRR 1, cRej 0, cRej 1, cDisc]

end Sys2Proof.Machine
end

