-- ==== Sys2Proof/Machine/Codec.lean ====
section
/-! DEFINITION. The frame codec (spec/40_codec.md): pure functions on bytes, no state. -/

namespace Sys2Proof.Machine

/-- `BCC1(a, c)` (R120). -/
def bcc1 (a c : Byte) : Byte := a ^^^ c

/-- `fold(P)`: the running exclusive-or, identity `0x00` (R121). -/
def fold (P : Bytes) : Byte := P.foldl (· ^^^ ·) 0

/-- `BCC2(P)` (R121). -/
def bcc2 (P : Bytes) : Byte := fold P

/-- What one data byte becomes on the wire (R88, R122). -/
def stuffByte (b : Byte) : Bytes :=
  if b = flag then [esc, escFlag] else if b = esc then [esc, escEsc] else [b]

/-- `STUFF(B)` (R122). -/
def stuff : Bytes → Bytes
  | [] => []
  | b :: B => stuffByte b ++ stuff B

/-- `DESTUFF(S)` (R123); `none` is `MalformedEscape`. An escape byte before any byte but `5E` and `5D` is data, and
the scan goes on at that byte. -/
def destuff : Bytes → Option Bytes
  | [] => some []
  | [b] => if b = esc then none else some [b]
  | b :: x :: S =>
    if b = esc then
      if x = escFlag then (destuff S).map (flag :: ·)
      else if x = escEsc then (destuff S).map (esc :: ·)
      else (destuff (x :: S)).map (esc :: ·)
    else (destuff (x :: S)).map (b :: ·)

/-- `ENC_SUP(a, c)` (R124, format S of R81). -/
def encSup (a c : Byte) : Bytes := [flag, a, c, bcc1 a c, flag]

/-- `ENC_INFO(s, P)` (R125, format I of R82). -/
def encInfo (s : Bit) (P : Bytes) : Bytes :=
  [flag, aTx, cI s, bcc1 aTx (cI s)] ++ stuff P ++ stuff [bcc2 P] ++ [flag]

/-- The four results of `DEC_INFO` (R126). -/
inductive DecResult where
  | headerBad
  | escapeBad
  | checksumBad
  | good (s : Bit) (payload : Bytes)
  deriving DecidableEq, Repr

/-- The check of the destuffed part of a body: payload, then the check byte last (R126). A destuffed part with no
byte has no check byte and is `checksumBad`. -/
def checkTail (s : Bit) (D : Bytes) : DecResult :=
  match D.getLast? with
  | none => .checksumBad
  | some k => if fold D.dropLast = k then .good s D.dropLast else .checksumBad

/-- `DEC_INFO(B, ovf)`: header, then escapes, then checksum (R126, order R264(c)). -/
def decInfo (B : Bytes) (ovf : Bool) : DecResult :=
  match B with
  | a :: c :: k :: S =>
    if ovf then .headerBad
    else if a ≠ aTx then .headerBad
    else if c ≠ 0x00 ∧ c ≠ 0x40 then .headerBad
    else if k ≠ bcc1 a c then .headerBad
    else
      match destuff S with
      | none => .escapeBad
      | some D => checkTail (seqOfI c) D
  | _ => .headerBad

/-- Did `DEC_INFO` find the body good? -/
def isGood : DecResult → Bool
  | .good _ _ => true
  | .headerBad | .escapeBad | .checksumBad => false

/-- A whole frame begins and ends with the flag and has no flag between (R64, R80, R46(i)). -/
def isFrame : Bytes → Bool
  | [] => false
  | f :: B => decide (f = flag) && decide (B.getLast? = some flag) && decide (flag ∉ B.dropLast)

/-- A captured body has no flag among its bytes (R46(g), R126). -/
def isBody (B : Bytes) : Bool := decide (flag ∉ B)

end Sys2Proof.Machine
end

