-- ==== Sys2Proof/WellFormed.lean ====
section
/-! DEFINITION. Which instruction terms are well formed: the domain each rule gives its operands. Rows whose operands
are any byte, bit, natural number or byte sequence have no check. -/

namespace Sys2Proof

open Machine

/-- Well-formedness of an instruction:
`StartTimed` and `WriteFrame` take a whole frame (R64, R171, R181); `Fail` a fatal status (R176, R252 to R254);
`HandleAccept` a control byte the recognizer can report (R206); `DEC_INFO` and `ProcessBody` a body with no flag
in it (R126); a BODY row a body with that result of `DEC_INFO` (R228 to R232). -/
def Instr.wf : Instr → Bool
  | .set | .uaRx | .uaTx | .discTx | .discRx | .rr0 | .rr1 | .rej0 | .rej1 => true
  | .i0 _ | .i1 _ | .rrS _ | .rejS _ | .iS _ _ | .escFlag | .escEsc => true
  | .nop | .openCmd _ _ _ | .sendCmd _ | .receiveCmd | .closeCmd => true
  | .reserved5 | .reserved6 | .reserved7 => true
  | .rxbyteSup _ | .rxbyteCap _ | .tick | .expire | .resetInput => true
  | .bcc1 _ _ | .bcc2 _ | .stuff _ | .destuff _ | .encSup _ _ | .encInfo _ _ => true
  | .decInfo B _ => isBody B
  | .recStep _ | .capStep _ => true
  | .startTimed _ F => isFrame F
  | .loopCheck | .cancelTimer => true
  | .fail e => fatal e
  | .writeFrame F => isFrame F
  | .handleAccept c => decide (c ∈ supervisionCtrls)
  | .processBody B _ => isBody B
  | .acceptUaOpenTx | .acceptSetOpenRx | .acceptDiscCloseTx | .acceptDiscCloseRx | .acceptUaCloseRx => true
  | .acceptRrNext | .acceptRej _ | .acceptRrSame => true
  | .bodyHeaderBad B ovf => isBody B && decide (Machine.decInfo B ovf = .headerBad)
  | .bodyEscapeBad B => isBody B && decide (Machine.decInfo B false = .escapeBad)
  | .bodyChecksumBad B => isBody B && decide (Machine.decInfo B false = .checksumBad)
  | .bodyDuplicate B => isBody B && isGood (Machine.decInfo B false)
  | .bodyNew B => isBody B && isGood (Machine.decInfo B false)

end Sys2Proof
end

