-- ==== Sys2Proof/Decode.lean ====
section
/-! DEFINITION. Input records, their decoder and the encoder.

One step of the block takes one input (spec/00_scope.md R5, R7), so the environment presents RECORDS, one per input.
A record is a list of port words, each a natural number (the widths `NT_W`, `TO_W`, `LEN_W` are open, R16; a byte is
a word below 256). Its first word says what is presented:

* `0x7E`: the wire bytes of a whole frame, from its opening to its closing flag (spec/30_encoding.md R81, R82, R97);
* `0x7D`: the two wire bytes of a stuffing pair (R88);
* `0` to `7`: `cmd_code`, then the command's port fields (R12, R101): OPEN has `cmd_role`, `cmd_ntries`,
  `cmd_timeout`; SEND has `txp_len`, then `txp_data` by index;
* `256 + k`: the row of index `k` of the opcode table, for a row to which the spec gives no code of its own. These
  selectors are the model's (DESIGN CHOICE, log entry 2; safe: they name rows and carry no behaviour). The generic
  rows RR(s), REJ(s), I(s) have one too, because their wire bytes decode to the concrete rows (log entry 8). -/

namespace Sys2Proof

open Machine

/-- One input record: the port words sampled for one input. -/
abbrev Record := List Nat

/-- Why a record is no input of the block. Raised by `decode`; `step` answers a refusal (safe). -/
inductive DecodeError where
  /-- The record has no word. -/
  | empty
  /-- The first word is no flag, no escape, no command code and no row selector. -/
  | unknownSelector
  /-- A word that must be a byte, a bit or a code is out of range, or there are too many or too few words. -/
  | badOperand
  /-- Wire bytes with flags at both ends that are none of the eleven frames of R97. -/
  | unknownFrame
  /-- `7D` not followed by exactly `5E` or `5D` (R88). -/
  | unknownPair
  /-- The instruction read is not well formed. -/
  | illFormed
  deriving DecidableEq, Repr

/-! ## Port words -/

/-- A byte from a port word. -/
def wByte (w : Nat) : Option Byte := if w < 256 then some (BitVec.ofNat 8 w) else none

/-- A bit from a port word. -/
def wBit (w : Nat) : Option Bit := if w < 2 then some (BitVec.ofNat 1 w) else none

/-- A one-bit flag from a port word. -/
def wBool (w : Nat) : Option Bool := if w < 2 then some (decide (w = 1)) else none

/-- A role from `cmd_role` (R21). -/
def wRole : Nat → Option Role
  | 0 => some .tx
  | 1 => some .rx
  | _ => none

/-- A byte sequence from port words. -/
def wBytes : List Nat → Option Bytes
  | [] => some []
  | w :: ws =>
    match wByte w, wBytes ws with
    | some b, some B => some (b :: B)
    | _, _ => none

/-- A timed phase from a port word: the order of R170. -/
def wTimed : Nat → Option TimedPhase
  | 0 => some .openTxWaitUa
  | 1 => some .sendWaitAck
  | 2 => some .closeTxWaitDisc
  | 3 => some .closeRxWaitUa
  | _ => none

/-- A status from a port word: its code (R250). -/
def wStatus : Nat → Option Status
  | 0 => some .ok
  | 1 => some .deviceError
  | 2 => some .connectionTimeout
  | 3 => some .disconnectTimeout
  | 4 => some .maxRetransmissionsExceeded
  | 5 => some .illegalCommand
  | 6 => some .payloadTooLong
  | _ => none

/-- The port word of a timed phase. -/
def timedWord : TimedPhase → Nat
  | .openTxWaitUa => 0
  | .sendWaitAck => 1
  | .closeTxWaitDisc => 2
  | .closeRxWaitUa => 3

/-- The port words of a byte sequence. -/
def bytesWords (B : Bytes) : List Nat := B.map BitVec.toNat

/-! ## Operand shapes of a record -/

/-- No operand word. -/
def ops0 (ws : List Nat) (i : Instr) : Option Instr := if ws = [] then some i else none

/-- One byte. -/
def opsByte (ws : List Nat) (f : Byte → Instr) : Option Instr :=
  match ws with
  | [w] => (wByte w).map f
  | _ => none

/-- One bit. -/
def opsBit (ws : List Nat) (f : Bit → Instr) : Option Instr :=
  match ws with
  | [w] => (wBit w).map f
  | _ => none

/-- One status code. -/
def opsStatus (ws : List Nat) (f : Status → Instr) : Option Instr :=
  match ws with
  | [w] => (wStatus w).map f
  | _ => none

/-- Two bytes. -/
def opsByte2 (ws : List Nat) (f : Byte → Byte → Instr) : Option Instr :=
  match ws with
  | [v, w] =>
    match wByte v, wByte w with
    | some a, some c => some (f a c)
    | _, _ => none
  | _ => none

/-- A byte sequence: every remaining word. -/
def opsBytes (ws : List Nat) (f : Bytes → Instr) : Option Instr := (wBytes ws).map f

/-- A first operand of another kind, then a byte sequence. -/
def opsThenBytes {α : Type} (ws : List Nat) (r : Nat → Option α) (f : α → Bytes → Instr) : Option Instr :=
  match ws with
  | w :: rest =>
    match r w, wBytes rest with
    | some a, some B => some (f a B)
    | _, _ => none
  | [] => none

/-! ## The four forms -/

/-- A row of the table of concrete supervision frames: the header `A << 16 | C << 8 | BCC1` (R97). -/
structure HeaderRow where
  header : BitVec 24
  instr : Instr
  deriving DecidableEq, Repr

/-- The nine concrete supervision frames (R97). -/
def supervisionRows : List HeaderRow :=
  [⟨0x030300, .set⟩, ⟨0x010706, .uaRx⟩, ⟨0x030704, .uaTx⟩, ⟨0x030B08, .discTx⟩, ⟨0x010B0A, .discRx⟩] ++
  [⟨0x010504, .rr0⟩, ⟨0x018584, .rr1⟩, ⟨0x010100, .rej0⟩, ⟨0x018180, .rej1⟩]

/-- The instruction of a supervision header, if it is one of R97's. -/
def supervisionOf (h : BitVec 24) : Option Instr :=
  (supervisionRows.find? (fun r => r.header == h)).map HeaderRow.instr

/-- The information frame with these wire bytes: the body between the flags must be good (R126) and stuffed as
`ENC_INFO` stuffs it (R125). -/
def parseInfo (F : Bytes) : Option Instr :=
  match decInfo (F.drop 1).dropLast false with
  | .good s P =>
    if encInfo s P = F then some (if s = 0 then .i0 P else .i1 P) else none
  | .headerBad | .escapeBad | .checksumBad => none

/-- A frame from its wire bytes: format S has five bytes (R81, R89), any other length is format I (R82). -/
def parseFrame (F : Bytes) : Option Instr :=
  match F with
  | [f, a, c, k, g] => if f = flag ∧ g = flag then supervisionOf (a ++ c ++ k) else none
  | _ => parseInfo F

/-- A stuffing pair from the words after `7D` (R88). -/
def parsePair : List Nat → Option Instr
  | [0x5E] => some .escFlag
  | [0x5D] => some .escEsc
  | _ => none

/-- The three port fields of OPEN (R12). -/
def opsOpen (ws : List Nat) : Option Instr :=
  match ws with
  | [r, n, t] => (wRole r).map (fun role => .openCmd role n t)
  | _ => none

/-- The payload source of SEND: `txp_len`, then that many bytes (R12). -/
def opsSend (ws : List Nat) : Option Instr :=
  match ws with
  | n :: data => if data.length = n then (wBytes data).map .sendCmd else none
  | [] => none

/-- A host command from `cmd_code` and its port fields (R101). -/
def parseCommand (code : Nat) (ws : List Nat) : Option Instr :=
  match code with
  | 0 => ops0 ws .nop
  | 1 => opsOpen ws
  | 2 => opsSend ws
  | 3 => ops0 ws .receiveCmd
  | 4 => ops0 ws .closeCmd
  | 5 => ops0 ws .reserved5
  | 6 => ops0 ws .reserved6
  | 7 => ops0 ws .reserved7
  | _ => none

/-- A row selected by its index in the opcode table; `none` outside is an index with a code of its own or no row. -/
def parseRow (k : Nat) (ws : List Nat) : Option (Option Instr) :=
  match k with
  | 11 => some (opsBit ws .rrS)
  | 12 => some (opsBit ws .rejS)
  | 13 => some (opsThenBytes ws wBit .iS)
  | 24 => some (opsByte ws .rxbyteSup)
  | 25 => some (opsByte ws .rxbyteCap)
  | 26 => some (ops0 ws .tick)
  | 27 => some (ops0 ws .expire)
  | 28 => some (ops0 ws .resetInput)
  | 29 => some (opsByte2 ws .bcc1)
  | 30 => some (opsBytes ws .bcc2)
  | 31 => some (opsBytes ws .stuff)
  | 32 => some (opsBytes ws .destuff)
  | 33 => some (opsByte2 ws .encSup)
  | 34 => some (opsThenBytes ws wBit .encInfo)
  | 35 => some (opsThenBytes ws wBool (fun ovf B => .decInfo B ovf))
  | 36 => some (opsByte ws .recStep)
  | 37 => some (opsByte ws .capStep)
  | 38 => some (opsThenBytes ws wTimed .startTimed)
  | 39 => some (ops0 ws .loopCheck)
  | 40 => some (ops0 ws .cancelTimer)
  | 41 => some (opsStatus ws .fail)
  | 42 => some (opsBytes ws .writeFrame)
  | 43 => some (opsByte ws .handleAccept)
  | 44 => some (opsThenBytes ws wBool (fun ovf B => .processBody B ovf))
  | 45 => some (ops0 ws .acceptUaOpenTx)
  | 46 => some (ops0 ws .acceptSetOpenRx)
  | 47 => some (ops0 ws .acceptDiscCloseTx)
  | 48 => some (ops0 ws .acceptDiscCloseRx)
  | 49 => some (ops0 ws .acceptUaCloseRx)
  | 50 => some (ops0 ws .acceptRrNext)
  | 51 => some (opsBit ws .acceptRej)
  | 52 => some (ops0 ws .acceptRrSame)
  | 53 => some (opsThenBytes ws wBool (fun ovf B => .bodyHeaderBad B ovf))
  | 54 => some (opsBytes ws .bodyEscapeBad)
  | 55 => some (opsBytes ws .bodyChecksumBad)
  | 56 => some (opsBytes ws .bodyDuplicate)
  | 57 => some (opsBytes ws .bodyNew)
  | _ => none

/-! ## The decoder -/

/-- An instruction read, or the named reason there is none. -/
def orError (e : DecodeError) : Option Instr → Except DecodeError Instr
  | some i => .ok i
  | none => .error e

/-- The instruction of a record by its first word; well-formedness is checked by `decode`. -/
def parse : Record → Except DecodeError Instr
  | [] => .error .empty
  | h :: ws =>
    if h = 0x7E then
      match wBytes (h :: ws) with
      | some F => orError .unknownFrame (parseFrame F)
      | none => .error .badOperand
    else if h = 0x7D then orError .unknownPair (parsePair ws)
    else if h < 8 then orError .badOperand (parseCommand h ws)
    else if h < 256 then .error .unknownSelector
    else
      match parseRow (h - 256) ws with
      | some r => orError .badOperand r
      | none => .error .unknownSelector

/-- The decoder: total on every record, and every instruction it gives is well formed. -/
def decode (r : Record) : Except DecodeError Instr :=
  match parse r with
  | .ok i => if i.wf then .ok i else .error .illFormed
  | .error e => .error e

/-! ## The encoder -/

/-- The wire bytes of the rows that are bytes on the wire (R88, R97, R82); `[]` for every other row. -/
def wireBytes : Instr → Bytes
  | .set => [0x7E, 0x03, 0x03, 0x00, 0x7E]
  | .uaRx => [0x7E, 0x01, 0x07, 0x06, 0x7E]
  | .uaTx => [0x7E, 0x03, 0x07, 0x04, 0x7E]
  | .discTx => [0x7E, 0x03, 0x0B, 0x08, 0x7E]
  | .discRx => [0x7E, 0x01, 0x0B, 0x0A, 0x7E]
  | .rr0 => [0x7E, 0x01, 0x05, 0x04, 0x7E]
  | .rr1 => [0x7E, 0x01, 0x85, 0x84, 0x7E]
  | .rej0 => [0x7E, 0x01, 0x01, 0x00, 0x7E]
  | .rej1 => [0x7E, 0x01, 0x81, 0x80, 0x7E]
  | .i0 P => encInfo 0 P
  | .i1 P => encInfo 1 P
  | .rrS s => encSup aRx (cRR s)
  | .rejS s => encSup aRx (cRej s)
  | .iS s P => encInfo s P
  | .escFlag => [0x7D, 0x5E]
  | .escEsc => [0x7D, 0x5D]
  | .nop | .openCmd _ _ _ | .sendCmd _ | .receiveCmd | .closeCmd => []
  | .reserved5 | .reserved6 | .reserved7 => []
  | .rxbyteSup _ | .rxbyteCap _ | .tick | .expire | .resetInput => []
  | .bcc1 _ _ | .bcc2 _ | .stuff _ | .destuff _ | .encSup _ _ | .encInfo _ _ | .decInfo _ _ => []
  | .recStep _ | .capStep _ | .startTimed _ _ | .loopCheck | .cancelTimer | .fail _ => []
  | .writeFrame _ | .handleAccept _ | .processBody _ _ => []
  | .acceptUaOpenTx | .acceptSetOpenRx | .acceptDiscCloseTx | .acceptDiscCloseRx | .acceptUaCloseRx => []
  | .acceptRrNext | .acceptRej _ | .acceptRrSame => []
  | .bodyHeaderBad _ _ | .bodyEscapeBad _ | .bodyChecksumBad _ | .bodyDuplicate _ | .bodyNew _ => []

/-- The encoder: the record that presents an instruction. -/
def encode : Instr → Record
  | .set => bytesWords (wireBytes .set)
  | .uaRx => bytesWords (wireBytes .uaRx)
  | .uaTx => bytesWords (wireBytes .uaTx)
  | .discTx => bytesWords (wireBytes .discTx)
  | .discRx => bytesWords (wireBytes .discRx)
  | .rr0 => bytesWords (wireBytes .rr0)
  | .rr1 => bytesWords (wireBytes .rr1)
  | .rej0 => bytesWords (wireBytes .rej0)
  | .rej1 => bytesWords (wireBytes .rej1)
  | .i0 P => bytesWords (wireBytes (.i0 P))
  | .i1 P => bytesWords (wireBytes (.i1 P))
  | .rrS s => [256 + 11, s.toNat]
  | .rejS s => [256 + 12, s.toNat]
  | .iS s P => (256 + 13) :: s.toNat :: bytesWords P
  | .escFlag => bytesWords (wireBytes .escFlag)
  | .escEsc => bytesWords (wireBytes .escEsc)
  | .nop => [0]
  | .openCmd r n t => [1, roleCode r, n, t]
  | .sendCmd P => 2 :: P.length :: bytesWords P
  | .receiveCmd => [3]
  | .closeCmd => [4]
  | .reserved5 => [5]
  | .reserved6 => [6]
  | .reserved7 => [7]
  | .rxbyteSup b => [256 + 24, b.toNat]
  | .rxbyteCap b => [256 + 25, b.toNat]
  | .tick => [256 + 26]
  | .expire => [256 + 27]
  | .resetInput => [256 + 28]
  | .bcc1 a c => [256 + 29, a.toNat, c.toNat]
  | .bcc2 P => (256 + 30) :: bytesWords P
  | .stuff B => (256 + 31) :: bytesWords B
  | .destuff S => (256 + 32) :: bytesWords S
  | .encSup a c => [256 + 33, a.toNat, c.toNat]
  | .encInfo s P => (256 + 34) :: s.toNat :: bytesWords P
  | .decInfo B ovf => (256 + 35) :: ovf.toNat :: bytesWords B
  | .recStep b => [256 + 36, b.toNat]
  | .capStep b => [256 + 37, b.toNat]
  | .startTimed p F => (256 + 38) :: timedWord p :: bytesWords F
  | .loopCheck => [256 + 39]
  | .cancelTimer => [256 + 40]
  | .fail e => [256 + 41, (statusCode e).toNat]
  | .writeFrame F => (256 + 42) :: bytesWords F
  | .handleAccept c => [256 + 43, c.toNat]
  | .processBody B ovf => (256 + 44) :: ovf.toNat :: bytesWords B
  | .acceptUaOpenTx => [256 + 45]
  | .acceptSetOpenRx => [256 + 46]
  | .acceptDiscCloseTx => [256 + 47]
  | .acceptDiscCloseRx => [256 + 48]
  | .acceptUaCloseRx => [256 + 49]
  | .acceptRrNext => [256 + 50]
  | .acceptRej s => [256 + 51, s.toNat]
  | .acceptRrSame => [256 + 52]
  | .bodyHeaderBad B ovf => (256 + 53) :: ovf.toNat :: bytesWords B
  | .bodyEscapeBad B => (256 + 54) :: bytesWords B
  | .bodyChecksumBad B => (256 + 55) :: bytesWords B
  | .bodyDuplicate B => (256 + 56) :: bytesWords B
  | .bodyNew B => (256 + 57) :: bytesWords B

/-! ## Words of the opcode table -/

/-- The record of a table word. The table numbers a frame by its header `A << 16 | C << 8 | BCC1` (R97) and a command
by `cmd_code[2:0]` (R101). What the table gives no bits is zero: the port fields of a command, and of an information
frame the payload (none) and the check byte (`00`). The two flags are not operands and are `7E`. -/
def tableRecord (nbits w : Nat) : Record :=
  if nbits = 24 then
    let a := w / 65536 % 256
    let c := w / 256 % 256
    let k := w % 256
    if a = 3 ∧ (c = 0 ∨ c = 64) then [0x7E, a, c, k, 0, 0x7E] else [0x7E, a, c, k, 0x7E]
  else
    match w with
    | 1 => [1, 0, 0, 0]
    | 2 => [2, 0]
    | _ => [w]

/-- The instruction the decoder reads from a table word. -/
def decodeTableWord (nbits w : Nat) : Option Instr :=
  match decode (tableRecord nbits w) with
  | .ok i => some i
  | .error _ => none

end Sys2Proof
end

