-- ==== Sys2Proof/Machine/State.lean ====
section
/-! DEFINITION. The state of the block (spec/10_state.md R20, reset values R47), its build parameters, the state of the
collaborators a step touches, and the reasons a step can stop. -/

namespace Sys2Proof.Machine

/-- `sess` (R24). -/
inductive Sess where
  | closed
  | opening
  | opened
  | closing
  | failed
  deriving DecidableEq, Repr

/-- `phase` (R25): the wait the command in progress is blocked in. -/
inductive Phase where
  | idle
  | openTxWaitUa
  | openRxWaitSet
  | sendWaitAck
  | recvCapture
  | closeTxWaitDisc
  | closeRxWaitDisc
  | closeRxWaitUa
  deriving DecidableEq, Repr

/-- `rec_state` (R34). -/
inductive RecState where
  | idle
  | flag
  | addr
  | ctrl
  | bcc
  deriving DecidableEq, Repr

/-- `cap_state` (R37). -/
inductive CapState where
  | idle
  | flag
  | body
  deriving DecidableEq, Repr

/-- The recoverable conditions `EV` reports (spec/60_exceptions.md R257 to R261). -/
inductive Event where
  | frameRejected
  | checksumMismatch
  | malformedEscape
  | duplicateFrame
  deriving DecidableEq, Repr

/-- The outputs of a step (spec/00_scope.md R5). -/
inductive Output where
  | tx (frame : Bytes)
  | tmrStart (duration : Nat)
  | tmrCancel
  | chanClose
  /-- `DONE(status)`, with the delivered payload of a RECEIVE that completes with OK. -/
  | done (status : Status) (payload : Option Bytes)
  | ev (kind : Event)
  deriving DecidableEq, Repr

/-- What a FUNCTION row returns. -/
inductive Returned where
  | none
  | byte (b : Byte)
  | bytes (B : Bytes)
  /-- Result of `DESTUFF`; `Option.none` is `MalformedEscape`. -/
  | destuffed (r : Option Bytes)
  | decoded (r : DecResult)
  /-- Result of `RecStep`: the accepted control byte, if any. -/
  | accept (c : Option Byte)
  /-- Result of `CapStep`: the completed body with its overflow bit, if any. -/
  | body (r : Option (Bytes × Bool))
  deriving DecidableEq, Repr

/-- The state. The first 21 fields are the block's registers (R20); `params` is fixed for the machine; the last four
belong to the collaborators and to the observation (log entries 1, 3, 4, 9). -/
structure State where
  role : Role
  ntries : Nat
  timeout : Nat
  sess : Sess
  phase : Phase
  ns : Bit
  nr : Bit
  lrfn : Bit
  err : Status
  retryCnt : Nat
  timerRunning : Bool
  timedOut : Bool
  txf : Bytes
  recState : RecState
  recCtrl : Byte
  capState : CapState
  capBuf : Bytes
  capOvf : Bool
  cntTxFrames : Nat
  cntRxFrames : Nat
  cntRetx : Nat
  /-- Build parameters (R16); no instruction writes them. -/
  params : Params
  /-- The channel's receive queue, head first (R63). -/
  rxq : Bytes
  /-- The input records the environment presents, next first. -/
  inputs : List Record
  /-- Every output emitted, oldest first (R10). -/
  out : List Output
  /-- What the last FUNCTION row returned; no rule reads it. -/
  ret : Returned
  deriving DecidableEq, Repr

/-- The machine right after reset (R47, R290, R292), with the collaborators' fields empty and unbounded parameters
(DESIGN CHOICE, log entries 14 and 24). -/
def State.reset : State where
  role := .tx
  ntries := 0
  timeout := 0
  sess := .closed
  phase := .idle
  ns := 0
  nr := 0
  lrfn := 1
  err := .ok
  retryCnt := 0
  timerRunning := false
  timedOut := false
  txf := []
  recState := .idle
  recCtrl := 0x00
  capState := .idle
  capBuf := []
  capOvf := false
  cntTxFrames := 0
  cntRxFrames := 0
  cntRetx := 0
  params := { maxPayload := none, cntW := none }
  rxq := []
  inputs := []
  out := []
  ret := .none

/-- Why a step stops with a fault. -/
inductive Fault where
  /-- A host command is presented while `phase` is not `P_IDLE`. Raised by every command's meaning. The spec gives
  the host no step there (R9, R11(d), 93 U4 `stuck`); the hardware leaves the command waiting. Safe. -/
  | commandNotEnabled
  /-- `HandleAccept` in a phase, or of a control byte, that R206 says cannot occur. Raised by `HandleAccept` and by
  RXBYTE in a supervision wait; unreachable from reset. Safe. -/
  | acceptNotExpected
  /-- The `RecStep` row in a phase that has no expectation (R36, R149). Raised by `RecStep` only. Safe. -/
  | noExpectation
  /-- An ACCEPT or BODY row in a phase other than the one it names. Raised by those rows only. Safe. -/
  | acceptNotInPhase
  /-- A BODY row with a body whose `DEC_INFO` result or sequence bit is not the row's. Raised by those rows only.
  Safe. -/
  | bodyNotOfRow
  deriving DecidableEq, Repr

/-- Why a step is refused. -/
inductive Refusal where
  /-- No meaning yet: raised by an arm of `exec`. Safe. -/
  | notModelled (mnemonic : String)
  /-- The next record is no row of the opcode table. Raised by `step`; the environment has no such input (R5).
  Safe. -/
  | undecodable (e : DecodeError)
  deriving DecidableEq, Repr

/-- The result of a meaning. -/
abbrev Res := Host.Outcome State Fault Refusal

end Sys2Proof.Machine
end

