-- ==== Sys2Proof/Machine/Flags.lean ====
section
/-! DEFINITION. The flag and counter computations: `timer_running`, `timed_out`, `retry_cnt` (spec/10_state.md R30 to
R32) and the statistics counters (R43 to R45). -/

namespace Sys2Proof.Machine

/-- A statistics counter incremented by one: unbounded, or modulo `2^CNT_W` (R43, R309). -/
def bump (p : Params) (n : Nat) : Nat :=
  match p.cntW with
  | none => n + 1
  | some w => (n + 1) % 2 ^ w

/-- `cnt_rx_frames <- cnt_rx_frames + 1` (R44). -/
def countRx (s : State) : State := { s with cntRxFrames := bump s.params s.cntRxFrames }

/-- `cnt_retx <- cnt_retx + 1` if this write of a timed exchange is not its first (R45, R172). -/
def countRetx (s : State) : State :=
  if 0 < s.retryCnt then { s with cntRetx := bump s.params s.cntRetx } else s

/-- The `EXPIRE` step (R173): ends the attempt of a running timer; a stale expiry changes nothing. -/
def expireFlags (s : State) : State :=
  if s.timerRunning then { s with timerRunning := false, timedOut := true, retryCnt := s.retryCnt + 1 } else s

end Sys2Proof.Machine
end

