-- ==== Sys2Proof/Machine/Operands.lean ====
section
/-! DEFINITION. What the rules read as operands besides registers: the recognizer's expectation and the timeout error,
both functions of `phase` (spec/10_state.md R36, spec/42_timed_exchange.md R170), and the buffer capacities. -/

namespace Sys2Proof.Machine

/-- The recognizer's expectation: an address and a set of controls (R140). -/
structure Expectation where
  addr : Byte
  ctrls : List Byte
  deriving DecidableEq, Repr

/-- The expectation of a phase (R36); none in `P_IDLE` and `P_RECV_CAPTURE`. -/
def expectation : Phase → Option Expectation
  | .openTxWaitUa => some ⟨aRx, [cUa]⟩
  | .openRxWaitSet => some ⟨aTx, [cSet]⟩
  | .sendWaitAck => some ⟨aRx, [cRR 0, cRR 1, cRej 0, cRej 1]⟩
  | .closeTxWaitDisc => some ⟨aRx, [cDisc]⟩
  | .closeRxWaitDisc => some ⟨aTx, [cDisc]⟩
  | .closeRxWaitUa => some ⟨aTx, [cUa]⟩
  | .idle | .recvCapture => none

/-- `TimeoutError(phase)` (R170, fourth column); defined exactly on the phases in `TIMED`. -/
def timeoutError : Phase → Option Status
  | .openTxWaitUa => some .connectionTimeout
  | .sendWaitAck => some .maxRetransmissionsExceeded
  | .closeTxWaitDisc => some .disconnectTimeout
  | .closeRxWaitUa => some .disconnectTimeout
  | .idle | .openRxWaitSet | .recvCapture | .closeRxWaitDisc => none

/-- The phase an operand of `StartTimed` names. -/
def timedPhase : TimedPhase → Phase
  | .openTxWaitUa => .openTxWaitUa
  | .sendWaitAck => .sendWaitAck
  | .closeTxWaitDisc => .closeTxWaitDisc
  | .closeRxWaitUa => .closeRxWaitUa

/-- Is the phase in `TIMED` (R25)? -/
def isTimed (p : Phase) : Bool := (timeoutError p).isSome

/-- `BODY_CAP = 2 * MAX_PAYLOAD + 5`, or unbounded (R62). -/
def bodyCap (p : Params) : Option Nat := p.maxPayload.map (fun m => 2 * m + 5)

/-- `TXF_CAP = 2 * MAX_PAYLOAD + 7`, or unbounded (R61). -/
def txfCap (p : Params) : Option Nat := p.maxPayload.map (fun m => 2 * m + 7)

/-- Is a length below a capacity? Always, where there is no capacity. -/
def below (n : Nat) : Option Nat → Bool
  | none => true
  | some cap => decide (n < cap)

/-- Is a length at most a capacity? Always, where there is no capacity. -/
def within (n : Nat) : Option Nat → Bool
  | none => true
  | some cap => decide (n ≤ cap)

end Sys2Proof.Machine
end

