-- ==== Sys2Proof/Machine/Scanners.lean ====
section
/-! DEFINITION. The two byte scanners (spec/41_recognizer.md): the transition functions of the supervision recognizer
(R141 to R146) and of the flag-delimited capture (R151 to R155), on the registers they own. -/

namespace Sys2Proof.Machine

/-- The recognizer's registers after a byte, and its Accept. -/
structure RecOut where
  state : RecState
  ctrl : Byte
  accept : Option Byte
  deriving DecidableEq, Repr

/-- Where a byte that does not fit sends the recognizer: to `R_FLAG` on a flag, else to `R_IDLE` (R98(a)). -/
def resync (b : Byte) : RecState := if b = flag then .flag else .idle

/-- One byte through the recognizer with expectation `x`, from state `r` and control `k` (R141 to R147). The test
against the expected value comes first, the test against the flag second, as R146 and R147 have it. R264(e) says the flag
test is first, citing R147; the spec does not settle the contradiction (DESIGN CHOICE, log entry 32; safe: in every wait the
two orders give the same result, `recNext_on_flag` of Laws/Ops.lean). -/
def recNext (x : Expectation) (r : RecState) (k b : Byte) : RecOut :=
  match r with
  | .idle => ⟨resync b, k, none⟩
  | .flag => if b = x.addr then ⟨.addr, k, none⟩ else ⟨resync b, k, none⟩
  | .addr => if b ∈ x.ctrls then ⟨.ctrl, b, none⟩ else ⟨resync b, k, none⟩
  | .ctrl => if b = bcc1 x.addr k then ⟨.bcc, k, none⟩ else ⟨resync b, k, none⟩
  | .bcc => ⟨.idle, k, if b = flag then some k else none⟩

/-- The capture's registers after a byte, and the body it completes. -/
structure CapOut where
  state : CapState
  buf : Bytes
  ovf : Bool
  body : Option (Bytes × Bool)
  deriving DecidableEq, Repr

/-- One byte through the capture with capacity `cap` (R151 to R156). -/
def capNext (cap : Option Nat) (r : CapState) (buf : Bytes) (ovf : Bool) (b : Byte) : CapOut :=
  match r with
  | .idle => if b = flag then ⟨.flag, [], false, none⟩ else ⟨.idle, buf, ovf, none⟩
  | .flag => if b = flag then ⟨.flag, buf, ovf, none⟩ else ⟨.body, [b], ovf, none⟩
  | .body =>
    if b = flag then ⟨.idle, [], false, some (buf, ovf)⟩
    else if below buf.length cap then ⟨.body, buf ++ [b], ovf, none⟩
    else ⟨.body, buf, true, none⟩

end Sys2Proof.Machine
end

