-- ==== Sys2Proof/Machine/Ops.lean ====
section
/-! DEFINITION. The shared operations on the state: outputs, the fatal end of an operation (this block's exception
entry, R265) and the recoverable condition, the timed exchange (spec/42_timed_exchange.md), the accept rules
(spec/43_connection.md, spec/44_transfer.md), and the taking of bytes from the channel (R63). -/

namespace Sys2Proof.Machine

/-- Run a meaning on the next state, if there is one. -/
def andThen (r : Res) (f : State → Res) : Res :=
  match r with
  | .next s => f s
  | .fault e => .fault e
  | .refused e => .refused e

/-! ## Outputs -/

/-- `emit X` (R18): appends an output. -/
def emit (o : Output) (s : State) : State := { s with out := s.out ++ [o] }

/-- `WriteFrame(F)` (R181). -/
def writeFrame (F : Bytes) (s : State) : State :=
  { emit (.tx F) s with cntTxFrames := bump s.params s.cntTxFrames }

/-- `emit DONE(e)` of a refused command: no register changes (R204, R255, R256). -/
def refuse (e : Status) (s : State) : State := emit (.done e none) s

/-- The successful end of a command that delivers nothing: `phase <- P_IDLE; emit DONE(OK)`. -/
def complete (s : State) : State := emit (.done .ok none) { s with phase := .idle }

/-! ## Timer, fatal end, recoverable condition -/

/-- `CancelTimer()` (R175). -/
def cancelTimer (s : State) : State :=
  if s.timerRunning then { emit .tmrCancel s with timerRunning := false } else s

/-- `Fail(e)` (R176): the entry of a fatal error (R265). -/
def fail (e : Status) (s : State) : State :=
  emit (.done e none) { cancelTimer s with sess := .failed, phase := .idle, err := e }

/-- The registers' return to their reset values (R290): the only way out of `FAILED` (R266). The parameters, the
channel's queue, the pending inputs and what has been observed are not registers and stay (R291, log entry 18). -/
def resetRegisters (s : State) : State :=
  { State.reset with params := s.params, rxq := s.rxq, inputs := s.inputs, out := s.out, ret := s.ret }

/-- A recoverable condition: `emit EV(kind)`, then the supervision frame that answers it (R261). -/
def report (k : Event) (F : Bytes) (s : State) : State := writeFrame F (emit (.ev k) s)

/-! ## The timed exchange -/

/-- Write `txf`, start the timer (the middle branch of R172). -/
def startAttempt (s : State) : State :=
  { emit (.tmrStart s.timeout) (writeFrame s.txf (countRetx s)) with timerRunning := true, timedOut := false }

/-- `LoopCheck()` with `TimeoutError(phase) = e` (R172). -/
def loopCheckWith (e : Status) (s : State) : State :=
  if s.ntries ≤ s.retryCnt then fail e s
  else if s.timerRunning then s
  else startAttempt s

/-- `if phase in TIMED then LoopCheck()` (R174, R177). -/
def loopCheckIfTimed (s : State) : State :=
  match timeoutError s.phase with
  | some e => loopCheckWith e s
  | none => s

/-- A fresh recognizer (R148). -/
def freshRecognizer (s : State) : State := { s with recState := .idle, recCtrl := 0x00 }

/-- `StartTimed(p, F)` (R171). -/
def startTimed (p : TimedPhase) (F : Bytes) (s : State) : State :=
  loopCheckIfTimed
    (freshRecognizer
      { s with phase := timedPhase p, txf := F, retryCnt := 0, timerRunning := false, timedOut := false })

/-! ## Scanners on the state -/

/-- The register writes of `RecStep` (R146). -/
def recWrite (o : RecOut) (s : State) : State := { s with recState := o.state, recCtrl := o.ctrl }

/-- `RecStep(b)` with expectation `x`: its result on the current registers. -/
def recOut (x : Expectation) (b : Byte) (s : State) : RecOut := recNext x s.recState s.recCtrl b

/-- The register writes of `CapStep` (R155). -/
def capWrite (o : CapOut) (s : State) : State := { s with capState := o.state, capBuf := o.buf, capOvf := o.ovf }

/-- `CapStep(b)`: its result on the current registers. -/
def capOut (b : Byte) (s : State) : CapOut := capNext (bodyCap s.params) s.capState s.capBuf s.capOvf b

/-! ## Accept rules of the handshakes and of the reply wait -/

/-- Accept in `P_OPEN_TX_WAIT_UA` (R193). -/
def acceptOpenTx (s : State) : State := complete { cancelTimer s with sess := .opened }

/-- Accept in `P_OPEN_RX_WAIT_SET` (R195). -/
def acceptOpenRx (s : State) : State := complete { writeFrame (encSup aRx cUa) s with sess := .opened }

/-- Accept in `P_CLOSE_TX_WAIT_DISC` (R198). -/
def acceptCloseTx (s : State) : State :=
  complete { emit .chanClose (writeFrame (encSup aTx cUa) (cancelTimer s)) with sess := .closed }

/-- Accept in `P_CLOSE_RX_WAIT_DISC` (R200). -/
def acceptCloseRxDisc (s : State) : State := startTimed .closeRxWaitUa (encSup aRx cDisc) s

/-- Accept in `P_CLOSE_RX_WAIT_UA` (R201). -/
def acceptCloseRxUa (s : State) : State :=
  complete { emit .chanClose (cancelTimer s) with sess := .closed }

/-- Accept of the right RR in `P_SEND_WAIT_ACK` (R221). -/
def acceptAck (s : State) : State := complete { cancelTimer s with ns := ~~~ s.ns }

/-- Accept of a REJ in `P_SEND_WAIT_ACK` (R222): an attempt whose timer runs ends; one already ended is not charged
again. The retransmission is the `LoopCheck` that follows. -/
def acceptReject (s : State) : State :=
  if s.timerRunning then { cancelTimer s with retryCnt := s.retryCnt + 1 } else s

/-- Accept of a control byte in `P_SEND_WAIT_ACK` (R221 to R223). -/
def acceptSend (c : Byte) (s : State) : Res :=
  if c = cRR (~~~ s.ns) then .next (acceptAck s)
  else if c = cRej 0 ∨ c = cRej 1 then .next (acceptReject s)
  else if c = cRR s.ns then .next s
  else .fault .acceptNotExpected

/-- An accept that its phase expects with one control byte only. -/
def acceptOnly (want c : Byte) (t : State) : Res := if c = want then .next t else .fault .acceptNotExpected

/-- `HandleAccept(c)`: the dispatch on `phase` (R206). -/
def handleAccept (c : Byte) (s : State) : Res :=
  match s.phase with
  | .openTxWaitUa => acceptOnly cUa c (acceptOpenTx s)
  | .openRxWaitSet => acceptOnly cSet c (acceptOpenRx s)
  | .sendWaitAck => acceptSend c s
  | .closeTxWaitDisc => acceptOnly cDisc c (acceptCloseTx s)
  | .closeRxWaitDisc => acceptOnly cDisc c (acceptCloseRxDisc s)
  | .closeRxWaitUa => acceptOnly cUa c (acceptCloseRxUa s)
  | .idle | .recvCapture => .fault .acceptNotExpected

/-! ## Outcomes of a captured body -/

/-- A rejected body: the event, then `REJ(nr)` (R228 to R230). -/
def rejectBody (k : Event) (s : State) : State := report k (encSup aRx (cRej s.nr)) s

/-- A duplicate: counted, reported, acknowledged with the unchanged `nr`, not delivered (R227, R231). -/
def duplicateBody (s : State) : State := report .duplicateFrame (encSup aRx (cRR s.nr)) (countRx s)

/-- A new frame: counted, `lrfn` and `nr` advance, `RR(nr)` is written, then the payload is delivered (R227, R232). -/
def deliverBody (b : Bit) (P : Bytes) (s : State) : State :=
  let t := { countRx s with lrfn := b, nr := ~~~ s.nr }
  emit (.done .ok (some P)) { writeFrame (encSup aRx (cRR t.nr)) t with phase := .idle }

/-- `ProcessBody(B, ovf)` (R227). Of any good body the whole payload is delivered. With a bounded MAX_PAYLOAD that can be up
to `2 * MAX_PAYLOAD + 1` bytes, the most BODY_CAP admits, although R16 calls MAX_PAYLOAD the most that RECEIVE can deliver:
R126 and R227 have no length test (DESIGN CHOICE, log entry 31; unsafe). -/
def processBody (B : Bytes) (ovf : Bool) (s : State) : State :=
  match decInfo B ovf with
  | .headerBad => rejectBody .frameRejected s
  | .escapeBad => rejectBody .malformedEscape s
  | .checksumBad => rejectBody .checksumMismatch s
  | .good b P => if b = s.lrfn then duplicateBody s else deliverBody b P s

/-! ## Taking a byte from the channel -/

/-- `RXBYTE(b)` in a supervision wait with expectation `x` (R177). -/
def rxSupervision (x : Expectation) (b : Byte) (s : State) : Res :=
  let o := recOut x b s
  let t := recWrite o s
  match o.accept with
  | none => .next (loopCheckIfTimed t)
  | some c => andThen (handleAccept c (countRx t)) (fun u => .next (loopCheckIfTimed u))

/-- `RXBYTE(b)` in `P_RECV_CAPTURE` (R226). -/
def rxCapture (b : Byte) (s : State) : State :=
  let o := capOut b s
  let t := capWrite o s
  match o.body with
  | none => t
  | some (B, ovf) => processBody B ovf t

/-- `RXBYTE(b)` taken by the block: the phase alone decides which scanner reads it (R72, R149, R150). In `P_IDLE` no
byte is taken (R9). -/
def rxTaken (b : Byte) (s : State) : Res :=
  match expectation s.phase with
  | some x => rxSupervision x b s
  | none => .next (if s.phase = .recvCapture then rxCapture b s else s)

/-- The block takes the head byte of the channel's queue, outside `P_IDLE` (R9, R63). -/
def takeHead (s : State) : Res :=
  if s.phase = .idle then .next s
  else
    match s.rxq with
    | [] => .next s
    | b :: q => rxTaken b { s with rxq := q }

/-- The input `RXBYTE(b)`: the byte is the channel's newest, and the block, if it reads, takes the queue's head, which
is `b` itself when nothing waited (R6(3), R63). In `P_IDLE` the byte waits in the queue. -/
def rxInput (b : Byte) (s : State) : Res := takeHead { s with rxq := s.rxq ++ [b] }

/-- `rxbytes B`: `rx b` for each byte in order (R104). -/
def rxBytes : Bytes → State → Res
  | [], s => .next s
  | b :: B, s => andThen (rxInput b s) (rxBytes B)

/-- The input `TICK` (R174). In `P_IDLE` it changes nothing (R273, log entry 13). It does not look at `rxq`: the spec does not say
whether the channel may offer an empty read while bytes are queued (R6(3), R14), and the model lets it, the bytes staying
queued (DESIGN CHOICE, log entry 30; safe, it only allows more runs). -/
def tickInput (s : State) : State := loopCheckIfTimed s

/-! ## Host commands -/

/-- `cmd_ready` (R12). -/
def cmdReady (s : State) : Bool := decide (s.phase = .idle)

/-- A command is taken only in `P_IDLE` (R9); elsewhere the host has no step (R11(d), 93 U4). -/
def whenReady (s t : State) : Res := if s.phase = .idle then .next t else .fault .commandNotEnabled

/-- OPEN's session initialisation (R48, R191). -/
def openSession (r : Role) (n t : Nat) (s : State) : State :=
  { s with
    role := r, ntries := n, timeout := t, ns := 0, nr := 0, lrfn := 1, err := .ok
    cntTxFrames := 0, cntRxFrames := 0, cntRetx := 0, sess := .opening }

/-- The body of OPEN (R191). -/
def openBody (r : Role) (n t : Nat) (s : State) : State :=
  if s.sess = .closed then
    match r with
    | .tx => startTimed .openTxWaitUa (encSup aTx cSet) (openSession r n t s)
    | .rx => freshRecognizer { openSession r n t s with phase := .openRxWaitSet }
  else refuse .illegalCommand s

/-- The body of SEND (R220): legality, then length, then the exchange (R264(d)). -/
def sendBody (P : Bytes) (s : State) : State :=
  if s.sess = .opened ∧ s.role = .tx then
    if within P.length s.params.maxPayload then startTimed .sendWaitAck (encInfo s.ns P) s
    else refuse .payloadTooLong s
  else refuse .illegalCommand s

/-- The body of RECEIVE (R225). -/
def receiveBody (s : State) : State :=
  if s.sess = .opened ∧ s.role = .rx then
    { s with phase := .recvCapture, capState := .idle, capBuf := [], capOvf := false }
  else refuse .illegalCommand s

/-- The body of CLOSE (R196). -/
def closeBody (s : State) : State :=
  if s.sess = .opened then
    match s.role with
    | .tx => startTimed .closeTxWaitDisc (encSup aTx cDisc) { s with sess := .closing }
    | .rx => freshRecognizer { s with sess := .closing, phase := .closeRxWaitDisc }
  else refuse .illegalCommand s

end Sys2Proof.Machine
end

