-- ==== Sys2Proof/Machine/Accepts.lean ====
section
/-! DEFINITION. The ACCEPT and BODY rows: each is the pseudocode of its own rule, in the phase the row names
(spec/43_connection.md, spec/44_transfer.md). The count of a supervision Accept and the `LoopCheck` after it are
RXBYTE's (R177). Log entries 10 and 11. -/

namespace Sys2Proof.Machine

/-- A row that runs in one phase only. -/
def inPhase (p : Phase) (s : State) (r : Res) : Res := if s.phase = p then r else .fault .acceptNotInPhase

/-- `ACCEPT.UA@P_OPEN_TX_WAIT_UA` (R193). -/
def execAcceptUaOpenTx (s : State) : Res := inPhase .openTxWaitUa s (.next (acceptOpenTx s))

/-- `ACCEPT.SET@P_OPEN_RX_WAIT_SET` (R195). -/
def execAcceptSetOpenRx (s : State) : Res := inPhase .openRxWaitSet s (.next (acceptOpenRx s))

/-- `ACCEPT.DISC@P_CLOSE_TX_WAIT_DISC` (R198). -/
def execAcceptDiscCloseTx (s : State) : Res := inPhase .closeTxWaitDisc s (.next (acceptCloseTx s))

/-- `ACCEPT.DISC@P_CLOSE_RX_WAIT_DISC` (R200). -/
def execAcceptDiscCloseRx (s : State) : Res := inPhase .closeRxWaitDisc s (.next (acceptCloseRxDisc s))

/-- `ACCEPT.UA@P_CLOSE_RX_WAIT_UA` (R201). -/
def execAcceptUaCloseRx (s : State) : Res := inPhase .closeRxWaitUa s (.next (acceptCloseRxUa s))

/-- `ACCEPT.RR(~ns)@P_SEND_WAIT_ACK` (R221). -/
def execAcceptRrNext (s : State) : Res := inPhase .sendWaitAck s (.next (acceptAck s))

/-- `ACCEPT.REJ@P_SEND_WAIT_ACK` (R222): either sequence bit has the same effect. -/
def execAcceptRej (_b : Bit) (s : State) : Res := inPhase .sendWaitAck s (.next (acceptReject s))

/-- `ACCEPT.RR(ns)@P_SEND_WAIT_ACK` (R223): ignored. -/
def execAcceptRrSame (s : State) : Res := inPhase .sendWaitAck s (.next s)

/-- A captured body with one result of `DEC_INFO`. -/
def bodyWith (want got : DecResult) (t : State) : Res := if got = want then .next t else .fault .bodyNotOfRow

/-- `BODY.HeaderBad` (R228). -/
def execBodyHeaderBad (B : Bytes) (ovf : Bool) (s : State) : Res :=
  inPhase .recvCapture s (bodyWith .headerBad (decInfo B ovf) (rejectBody .frameRejected s))

/-- `BODY.EscapeBad` (R229). -/
def execBodyEscapeBad (B : Bytes) (s : State) : Res :=
  inPhase .recvCapture s (bodyWith .escapeBad (decInfo B false) (rejectBody .malformedEscape s))

/-- `BODY.ChecksumBad` (R230). -/
def execBodyChecksumBad (B : Bytes) (s : State) : Res :=
  inPhase .recvCapture s (bodyWith .checksumBad (decInfo B false) (rejectBody .checksumMismatch s))

/-- `BODY.Duplicate` (R231): a good body whose sequence bit is `lrfn`. -/
def execBodyDuplicate (B : Bytes) (s : State) : Res :=
  inPhase .recvCapture s
    (match decInfo B false with
    | .good b _ => if b = s.lrfn then .next (duplicateBody s) else .fault .bodyNotOfRow
    | .headerBad | .escapeBad | .checksumBad => .fault .bodyNotOfRow)

/-- `BODY.New` (R232): a good body whose sequence bit is not `lrfn`. -/
def execBodyNew (B : Bytes) (s : State) : Res :=
  inPhase .recvCapture s
    (match decInfo B false with
    | .good b P => if b = s.lrfn then .fault .bodyNotOfRow else .next (deliverBody b P s)
    | .headerBad | .escapeBad | .checksumBad => .fault .bodyNotOfRow)

end Sys2Proof.Machine
end

