-- ==== Sys2Proof/Machine/Commands.lean ====
section
/-! DEFINITION. The host commands (spec/30_encoding.md R101; spec/43_connection.md R191, R196, R204, R205;
spec/44_transfer.md R220, R225). -/

namespace Sys2Proof.Machine

/-- `NOP` (R205): changes nothing and emits nothing. -/
def execNop (s : State) : Res := whenReady s s

/-- `OPEN(role, ntries, timeout)` (R191). -/
def execOpen (r : Role) (n t : Nat) (s : State) : Res := whenReady s (openBody r n t s)

/-- `SEND(P)` (R220). -/
def execSend (P : Bytes) (s : State) : Res := whenReady s (sendBody P s)

/-- `RECEIVE` (R225). -/
def execReceive (s : State) : Res := whenReady s (receiveBody s)

/-- `CLOSE` (R196). -/
def execClose (s : State) : Res := whenReady s (closeBody s)

/-- `cmd_code = 5` (R205): refused. -/
def execReserved5 (s : State) : Res := whenReady s (refuse .illegalCommand s)

/-- `cmd_code = 6` (R205): refused. -/
def execReserved6 (s : State) : Res := whenReady s (refuse .illegalCommand s)

/-- `cmd_code = 7` (R205): refused. -/
def execReserved7 (s : State) : Res := whenReady s (refuse .illegalCommand s)

end Sys2Proof.Machine
end

