-- ==== Sys2Proof/Machine/Frames.lean ====
section
/-! DEFINITION. The frame rows and the stuffing pairs. As an input event a frame is `rxframe F` (spec/30_encoding.md
R104): `rx b` for each byte of it in order. What the block then does is what its phase does with each byte; the rules
R90 to R95 say in which phase a frame is accepted. Log entries 6 and 7. -/

namespace Sys2Proof.Machine

/-- `SET` (R90) arrives. -/
def execSet (s : State) : Res := rxBytes (wireBytes .set) s

/-- `UA.rx` (R91) arrives. -/
def execUaRx (s : State) : Res := rxBytes (wireBytes .uaRx) s

/-- `UA.tx` (R91) arrives. -/
def execUaTx (s : State) : Res := rxBytes (wireBytes .uaTx) s

/-- `DISC.tx` (R92) arrives. -/
def execDiscTx (s : State) : Res := rxBytes (wireBytes .discTx) s

/-- `DISC.rx` (R92) arrives. -/
def execDiscRx (s : State) : Res := rxBytes (wireBytes .discRx) s

/-- `RR0` (R93) arrives. -/
def execRr0 (s : State) : Res := rxBytes (wireBytes .rr0) s

/-- `RR1` (R93) arrives. -/
def execRr1 (s : State) : Res := rxBytes (wireBytes .rr1) s

/-- `REJ0` (R94) arrives. -/
def execRej0 (s : State) : Res := rxBytes (wireBytes .rej0) s

/-- `REJ1` (R94) arrives. -/
def execRej1 (s : State) : Res := rxBytes (wireBytes .rej1) s

/-- `I0` (R95) with a payload arrives. -/
def execI0 (P : Bytes) (s : State) : Res := rxBytes (wireBytes (.i0 P)) s

/-- `I1` (R95) with a payload arrives. -/
def execI1 (P : Bytes) (s : State) : Res := rxBytes (wireBytes (.i1 P)) s

/-- `RR(s)` (R93) arrives. -/
def execRrS (b : Bit) (s : State) : Res := rxBytes (wireBytes (.rrS b)) s

/-- `REJ(s)` (R94) arrives. -/
def execRejS (b : Bit) (s : State) : Res := rxBytes (wireBytes (.rejS b)) s

/-- `I(s)` (R95) with a payload arrives. -/
def execIS (b : Bit) (P : Bytes) (s : State) : Res := rxBytes (wireBytes (.iS b P)) s

/-- The pair `7D 5E` (R88) arrives: the capture collects it raw (R155), `DESTUFF` later reads it as `7E` (R123). -/
def execEscFlag (s : State) : Res := rxBytes (wireBytes .escFlag) s

/-- The pair `7D 5D` (R88) arrives: the capture collects it raw (R155), `DESTUFF` later reads it as `7D` (R123). -/
def execEscEsc (s : State) : Res := rxBytes (wireBytes .escEsc) s

end Sys2Proof.Machine
end

