-- ==== Sys2Proof/Machine/Inputs.lean ====
section
/-! DEFINITION. The input events RXBYTE, TICK, EXPIRE and RESET (spec/00_scope.md R5). -/

namespace Sys2Proof.Machine

/-- `RXBYTE.sup` (R177). The phase, not the row, decides which scanner reads the byte (R72; log entry 12). -/
def execRxbyteSup (b : Byte) (s : State) : Res := rxInput b s

/-- `RXBYTE.cap` (R226). The phase, not the row, decides which scanner reads the byte (R72; log entry 12). -/
def execRxbyteCap (b : Byte) (s : State) : Res := rxInput b s

/-- `TICK` (R174). -/
def execTick (s : State) : Res := .next (tickInput s)

/-- `EXPIRE` (R173). -/
def execExpire (s : State) : Res := .next (expireFlags s)

/-- `RESET` (R290): every register takes its reset value and nothing is emitted. -/
def execReset (s : State) : Res := .next (resetRegisters s)

end Sys2Proof.Machine
end

