-- ==== Sys2Proof/Machine/Procedures.lean ====
section
/-! DEFINITION. The FUNCTION rows: the codec (spec/40_codec.md R120 to R126), the scanners' steps (R146, R155) and the
procedures of the timed exchange and of the accept dispatch (R171, R172, R175, R176, R181, R206, R227). A row that
returns a value leaves it in `ret`; the codec rows write no register. Log entries 9 and 10. -/

namespace Sys2Proof.Machine

/-- What a FUNCTION row returns. -/
def returns (r : Returned) (s : State) : State := { s with ret := r }

/-- `BCC1(a, c)` (R120). -/
def execBcc1 (a c : Byte) (s : State) : Res := .next (returns (.byte (bcc1 a c)) s)

/-- `BCC2(P)` (R121). -/
def execBcc2 (P : Bytes) (s : State) : Res := .next (returns (.byte (bcc2 P)) s)

/-- `STUFF(B)` (R122). -/
def execStuff (B : Bytes) (s : State) : Res := .next (returns (.bytes (stuff B)) s)

/-- `DESTUFF(S)` (R123). -/
def execDestuff (S : Bytes) (s : State) : Res := .next (returns (.destuffed (destuff S)) s)

/-- `ENC_SUP(a, c)` (R124). -/
def execEncSup (a c : Byte) (s : State) : Res := .next (returns (.bytes (encSup a c)) s)

/-- `ENC_INFO(s, P)` (R125). -/
def execEncInfo (b : Bit) (P : Bytes) (s : State) : Res := .next (returns (.bytes (encInfo b P)) s)

/-- `DEC_INFO(B, ovf)` (R126). -/
def execDecInfo (B : Bytes) (ovf : Bool) (s : State) : Res := .next (returns (.decoded (decInfo B ovf)) s)

/-- `RecStep(b)` (R146), in a phase that has an expectation (R149). -/
def execRecStep (b : Byte) (s : State) : Res :=
  match expectation s.phase with
  | some x => .next (returns (.accept (recOut x b s).accept) (recWrite (recOut x b s) s))
  | none => .fault .noExpectation

/-- `CapStep(b)` (R155). -/
def execCapStep (b : Byte) (s : State) : Res :=
  .next (returns (.body (capOut b s).body) (capWrite (capOut b s) s))

/-- `StartTimed(p, F)` (R171). -/
def execStartTimed (p : TimedPhase) (F : Bytes) (s : State) : Res := .next (startTimed p F s)

/-- `LoopCheck()` (R172). Where the phase is not timed it does nothing: R172 states it of the run after a failed one, in
P_IDLE; the model takes the same in every other untimed phase (DEDUCED, log entry 33). -/
def execLoopCheck (s : State) : Res := .next (loopCheckIfTimed s)

/-- `CancelTimer()` (R175). -/
def execCancelTimer (s : State) : Res := .next (cancelTimer s)

/-- `Fail(e)` (R176). -/
def execFail (e : Status) (s : State) : Res := .next (fail e s)

/-- `WriteFrame(F)` (R181). -/
def execWriteFrame (F : Bytes) (s : State) : Res := .next (writeFrame F s)

/-- `HandleAccept(c)` (R206). -/
def execHandleAccept (c : Byte) (s : State) : Res := handleAccept c s

/-- `ProcessBody(B, ovf)` (R227). -/
def execProcessBody (B : Bytes) (ovf : Bool) (s : State) : Res := .next (processBody B ovf s)

end Sys2Proof.Machine
end

