-- ==== Sys2Proof/Machine/Dispatch.lean ====
section
/-! DEFINITION. The dispatch: one arm per row of spec/opcode_table.json, in the table's order. -/

namespace Sys2Proof.Machine

def exec (i : Instr) (s : State) : Host.Outcome State Fault Refusal :=
  match i with
  | .set => Sys2Proof.Machine.execSet s
  | .uaRx => Sys2Proof.Machine.execUaRx s
  | .uaTx => Sys2Proof.Machine.execUaTx s
  | .discTx => Sys2Proof.Machine.execDiscTx s
  | .discRx => Sys2Proof.Machine.execDiscRx s
  | .rr0 => Sys2Proof.Machine.execRr0 s
  | .rr1 => Sys2Proof.Machine.execRr1 s
  | .rej0 => Sys2Proof.Machine.execRej0 s
  | .rej1 => Sys2Proof.Machine.execRej1 s
  | .i0 P => Sys2Proof.Machine.execI0 P s
  | .i1 P => Sys2Proof.Machine.execI1 P s
  | .rrS b => Sys2Proof.Machine.execRrS b s
  | .rejS b => Sys2Proof.Machine.execRejS b s
  | .iS b P => Sys2Proof.Machine.execIS b P s
  | .escFlag => Sys2Proof.Machine.execEscFlag s
  | .escEsc => Sys2Proof.Machine.execEscEsc s
  | .nop => Sys2Proof.Machine.execNop s
  | .openCmd r n t => Sys2Proof.Machine.execOpen r n t s
  | .sendCmd P => Sys2Proof.Machine.execSend P s
  | .receiveCmd => Sys2Proof.Machine.execReceive s
  | .closeCmd => Sys2Proof.Machine.execClose s
  | .reserved5 => Sys2Proof.Machine.execReserved5 s
  | .reserved6 => Sys2Proof.Machine.execReserved6 s
  | .reserved7 => Sys2Proof.Machine.execReserved7 s
  | .rxbyteSup b => Sys2Proof.Machine.execRxbyteSup b s
  | .rxbyteCap b => Sys2Proof.Machine.execRxbyteCap b s
  | .tick => Sys2Proof.Machine.execTick s
  | .expire => Sys2Proof.Machine.execExpire s
  | .resetInput => Sys2Proof.Machine.execReset s
  | .bcc1 a c => Sys2Proof.Machine.execBcc1 a c s
  | .bcc2 P => Sys2Proof.Machine.execBcc2 P s
  | .stuff B => Sys2Proof.Machine.execStuff B s
  | .destuff B => Sys2Proof.Machine.execDestuff B s
  | .encSup a c => Sys2Proof.Machine.execEncSup a c s
  | .encInfo b P => Sys2Proof.Machine.execEncInfo b P s
  | .decInfo B ovf => Sys2Proof.Machine.execDecInfo B ovf s
  | .recStep b => Sys2Proof.Machine.execRecStep b s
  | .capStep b => Sys2Proof.Machine.execCapStep b s
  | .startTimed p F => Sys2Proof.Machine.execStartTimed p F s
  | .loopCheck => Sys2Proof.Machine.execLoopCheck s
  | .cancelTimer => Sys2Proof.Machine.execCancelTimer s
  | .fail e => Sys2Proof.Machine.execFail e s
  | .writeFrame F => Sys2Proof.Machine.execWriteFrame F s
  | .handleAccept c => Sys2Proof.Machine.execHandleAccept c s
  | .processBody B ovf => Sys2Proof.Machine.execProcessBody B ovf s
  | .acceptUaOpenTx => Sys2Proof.Machine.execAcceptUaOpenTx s
  | .acceptSetOpenRx => Sys2Proof.Machine.execAcceptSetOpenRx s
  | .acceptDiscCloseTx => Sys2Proof.Machine.execAcceptDiscCloseTx s
  | .acceptDiscCloseRx => Sys2Proof.Machine.execAcceptDiscCloseRx s
  | .acceptUaCloseRx => Sys2Proof.Machine.execAcceptUaCloseRx s
  | .acceptRrNext => Sys2Proof.Machine.execAcceptRrNext s
  | .acceptRej b => Sys2Proof.Machine.execAcceptRej b s
  | .acceptRrSame => Sys2Proof.Machine.execAcceptRrSame s
  | .bodyHeaderBad B ovf => Sys2Proof.Machine.execBodyHeaderBad B ovf s
  | .bodyEscapeBad B => Sys2Proof.Machine.execBodyEscapeBad B s
  | .bodyChecksumBad B => Sys2Proof.Machine.execBodyChecksumBad B s
  | .bodyDuplicate B => Sys2Proof.Machine.execBodyDuplicate B s
  | .bodyNew B => Sys2Proof.Machine.execBodyNew B s

end Sys2Proof.Machine
end

