-- ==== Sys2Proof/Machine/Fetch.lean ====
section
/-! DEFINITION. What the next step runs: the record at the head of `inputs`, or, with none presented, what the ports
offer by themselves. The block takes one input a step (spec/00_scope.md R5, R7); which one is next is plain data, over
which every statement quantifies (R264(a), 93 U9; log entry 1). -/

namespace Sys2Proof.Machine

/-- The next record, decoded; `none` when the environment presents no record. -/
def fetch (s : State) : Option (Except DecodeError Instr) := s.inputs.head?.map decode

/-- The record at the port is taken away. -/
def dropRecord (s : State) : State := { s with inputs := s.inputs.tail }

/-- No record is presented: in `P_IDLE` the block waits for a command and nothing changes (R74, R292); elsewhere it
reads the channel (R9), which offers the head of its queue or, when it holds nothing, an empty read, `TICK` (R6(3),
R14). -/
def poll (s : State) : Res :=
  if s.phase = .idle then .next s
  else
    match s.rxq with
    | [] => .next (tickInput s)
    | _ :: _ => takeHead s

end Sys2Proof.Machine
end

