-- ==== Sys2Proof/Machine/Step.lean ====
section
/-! DEFINITION. One step: fetch the next input record, decode it, run it. -/

namespace Sys2Proof.Machine

/-- One step. With no record presented the ports decide (`poll`); a record that is no row of the table is refused by
name; any other record runs its instruction with the record taken away. -/
def step (s : State) : Host.Outcome State Fault Refusal :=
  match fetch s with
  | none => poll s
  | some (.ok i) => exec i (dropRecord s)
  | some (.error e) => .refused (.undecodable e)

/-- `s` with a table word presented as the next record (spec/opcode_table.json's numbering; log entries 16, 17). -/
def State.withFetchWord (s : State) (nbits w : Nat) : State :=
  { s with inputs := tableRecord nbits w :: s.inputs }

end Sys2Proof.Machine
end

