-- ==== Sys2Proof/Machine/Ports.lean ====
section
/-! DEFINITION. Read-outs with no side effect: the output ports of spec/00_scope.md R12 to R15 (one possible carrier,
decision D6; no rule depends on them) and the suggested codes of the enumerated registers (spec/10_state.md R24, R25,
R34, R37; not observable, 93 U15). -/

namespace Sys2Proof.Machine

/-- `rx_ready` (R14). -/
def rxReady (s : State) : Bool := decide (s.phase ≠ .idle)

/-- `tmr_duration` (R15): always the `timeout` register. -/
def tmrDuration (s : State) : Nat := s.timeout

/-- `done_status` of an output that pulses `done_valid` (R13, R250). -/
def doneStatus : Output → Option (BitVec 4)
  | .done e _ => some (statusCode e)
  | .tx _ | .tmrStart _ | .tmrCancel | .chanClose | .ev _ => none

/-- `rxp_data` by index, of an output that delivers a payload; its length is `rxp_len` (R13). -/
def deliveredPayload : Output → Option Bytes
  | .done _ P => P
  | .tx _ | .tmrStart _ | .tmrCancel | .chanClose | .ev _ => none

/-- The event codes (R261). -/
def eventCode : Event → BitVec 3
  | .frameRejected => 1
  | .checksumMismatch => 2
  | .malformedEscape => 3
  | .duplicateFrame => 4

/-- `ev_kind` of an output that pulses `ev_valid` (R13, R261). -/
def evKind : Output → Option (BitVec 3)
  | .ev k => some (eventCode k)
  | .tx _ | .tmrStart _ | .tmrCancel | .chanClose | .done _ _ => none

/-- The bytes an output puts on `tx_data`, first listed first (R14, R64). -/
def txData : Output → Bytes
  | .tx F => F
  | .tmrStart _ | .tmrCancel | .chanClose | .done _ _ | .ev _ => []

/-- The transmit stream of a run (R64): the bytes of its `TX` outputs in order. -/
def txStream (s : State) : Bytes := s.out.flatMap txData

/-- The value of `err` as 4 bits (R29). -/
def errCode (s : State) : BitVec 4 := statusCode s.err

/-- Suggested code of `sess` (R24). -/
def sessCode : Sess → Nat
  | .closed => 0
  | .opening => 1
  | .opened => 2
  | .closing => 3
  | .failed => 4

/-- Suggested code of `phase` (R25). -/
def phaseCode : Phase → Nat
  | .idle => 0
  | .openTxWaitUa => 1
  | .openRxWaitSet => 2
  | .sendWaitAck => 3
  | .recvCapture => 4
  | .closeTxWaitDisc => 5
  | .closeRxWaitDisc => 6
  | .closeRxWaitUa => 7

/-- Suggested code of `rec_state` (R34). -/
def recStateCode : RecState → Nat
  | .idle => 0
  | .flag => 1
  | .addr => 2
  | .ctrl => 3
  | .bcc => 4

/-- Suggested code of `cap_state` (R37). -/
def capStateCode : CapState → Nat
  | .idle => 0
  | .flag => 1
  | .body => 2

end Sys2Proof.Machine
end

