-- ==== Sys2Proof/Safety.lean ====
section
/-! DEFINITION. What counts as a good state and a good environment, in the terms the statements use. -/

namespace Sys2Proof.Machine

/-- The invariants of spec/10_state.md R46, clauses (a) to (i). Clause (j) is about runs. -/
structure Inv (s : State) : Prop where
  /-- (a) -/
  lrfn_nr : s.lrfn = ~~~ s.nr
  /-- (b), first half -/
  retry_le : isTimed s.phase = true → s.retryCnt ≤ s.ntries
  /-- (b), second half -/
  retry_lt : s.timerRunning = true → s.retryCnt < s.ntries
  /-- (c) -/
  timed_out : s.timedOut = true → s.timerRunning = false
  /-- (d) -/
  timer_timed : s.timerRunning = true → isTimed s.phase = true
  /-- (e), opening -/
  opening_iff : (s.phase = .openTxWaitUa ∨ s.phase = .openRxWaitSet) ↔ s.sess = .opening
  /-- (e), transfer -/
  transfer_open : (s.phase = .sendWaitAck ∨ s.phase = .recvCapture) → s.sess = .opened
  /-- (e), closing -/
  closing_iff :
    (s.phase = .closeTxWaitDisc ∨ s.phase = .closeRxWaitDisc ∨ s.phase = .closeRxWaitUa) ↔ s.sess = .closing
  /-- (f) -/
  cap_body : s.phase = .recvCapture → (s.capState = .body ↔ s.capBuf ≠ [])
  /-- (g) -/
  cap_noflag : flag ∉ s.capBuf
  /-- (h) -/
  cap_ovf : s.capOvf = true → bodyCap s.params = some s.capBuf.length
  /-- (i) -/
  txf_frame : isTimed s.phase = true → isFrame s.txf = true

/-- Further facts the rules state about every reachable state. -/
structure Coherent (s : State) : Prop where
  /-- Inside a frame the recognizer holds a control byte its phase expects (R35, R146), so that every Accept is one of
  R206's table. -/
  rec_ctrl : ∀ x, expectation s.phase = some x → (s.recState = .ctrl ∨ s.recState = .bcc) → s.recCtrl ∈ x.ctrls
  /-- The Transmitter's phases (R25, R234(e)). -/
  role_tx : (s.phase = .openTxWaitUa ∨ s.phase = .sendWaitAck ∨ s.phase = .closeTxWaitDisc) → s.role = .tx
  /-- The Receiver's phases (R25, R234(e)). -/
  role_rx :
    (s.phase = .openRxWaitSet ∨ s.phase = .recvCapture ∨ s.phase = .closeRxWaitDisc ∨ s.phase = .closeRxWaitUa) →
      s.role = .rx
  /-- `err` holds a fatal code in `FAILED` and `OK` elsewhere (R29). -/
  err_failed : (s.sess = .failed → fatal s.err = true) ∧ (s.sess ≠ .failed → s.err = .ok)
  /-- `txf` stays within `TXF_CAP` (R33, R61). -/
  txf_cap : within s.txf.length (txfCap s.params) = true
  /-- `cap_buf` stays within `BODY_CAP` (R38, R62). -/
  buf_cap : within s.capBuf.length (bodyCap s.params) = true

/-- The rows the environment may present: arrivals on the line, host commands and the other input events. The FUNCTION
and ACCEPT rows "are not inputs" (spec/00_scope.md R18). -/
def isInput : Instr → Bool
  | .set | .uaRx | .uaTx | .discTx | .discRx | .rr0 | .rr1 | .rej0 | .rej1 => true
  | .i0 _ | .i1 _ | .rrS _ | .rejS _ | .iS _ _ | .escFlag | .escEsc => true
  | .nop | .openCmd _ _ _ | .sendCmd _ | .receiveCmd | .closeCmd => true
  | .reserved5 | .reserved6 | .reserved7 => true
  | .rxbyteSup _ | .rxbyteCap _ | .tick | .expire | .resetInput => true
  | .bcc1 _ _ | .bcc2 _ | .stuff _ | .destuff _ | .encSup _ _ | .encInfo _ _ | .decInfo _ _ => false
  | .recStep _ | .capStep _ | .startTimed _ _ | .loopCheck | .cancelTimer | .fail _ => false
  | .writeFrame _ | .handleAccept _ | .processBody _ _ => false
  | .acceptUaOpenTx | .acceptSetOpenRx | .acceptDiscCloseTx | .acceptDiscCloseRx | .acceptUaCloseRx => false
  | .acceptRrNext | .acceptRej _ | .acceptRrSame => false
  | .bodyHeaderBad _ _ | .bodyEscapeBad _ | .bodyChecksumBad _ | .bodyDuplicate _ | .bodyNew _ => false

/-- The host commands: the rows of `cmd_code` (R101). -/
def isCommand : Instr → Bool
  | .nop | .openCmd _ _ _ | .sendCmd _ | .receiveCmd | .closeCmd => true
  | .reserved5 | .reserved6 | .reserved7 => true
  | .set | .uaRx | .uaTx | .discTx | .discRx | .rr0 | .rr1 | .rej0 | .rej1 => false
  | .i0 _ | .i1 _ | .rrS _ | .rejS _ | .iS _ _ | .escFlag | .escEsc => false
  | .rxbyteSup _ | .rxbyteCap _ | .tick | .expire | .resetInput => false
  | .bcc1 _ _ | .bcc2 _ | .stuff _ | .destuff _ | .encSup _ _ | .encInfo _ _ | .decInfo _ _ => false
  | .recStep _ | .capStep _ | .startTimed _ _ | .loopCheck | .cancelTimer | .fail _ => false
  | .writeFrame _ | .handleAccept _ | .processBody _ _ => false
  | .acceptUaOpenTx | .acceptSetOpenRx | .acceptDiscCloseTx | .acceptDiscCloseRx | .acceptUaCloseRx => false
  | .acceptRrNext | .acceptRej _ | .acceptRrSame => false
  | .bodyHeaderBad _ _ | .bodyEscapeBad _ | .bodyChecksumBad _ | .bodyDuplicate _ | .bodyNew _ => false

/-- The rows whose event is an arrival of wire bytes (R104). -/
def isArrival (i : Instr) : Bool := decide (wireBytes i ≠ [])

/-- Every record the environment presents is an input (R5). -/
def InputsOnly (s : State) : Prop := ∀ r ∈ s.inputs, ∀ i, decode r = .ok i → isInput i = true

/-- A good state in a good environment. -/
structure Good (s : State) : Prop where
  inv : Inv s
  coherent : Coherent s
  inputs : InputsOnly s

/-- The recognizer on a byte sequence: its registers and the controls it accepts, in order. -/
def recFeed (x : Expectation) : RecState → Byte → Bytes → RecState × Byte × List Byte
  | r, k, [] => (r, k, [])
  | r, k, b :: B =>
    let o := recNext x r k b
    let rest := recFeed x o.state o.ctrl B
    (rest.1, rest.2.1, o.accept.toList ++ rest.2.2)

/-- The capture on a byte sequence: its registers and the bodies it completes, in order. -/
def capFeed (cap : Option Nat) : CapState → Bytes → Bool → Bytes → CapState × Bytes × Bool × List (Bytes × Bool)
  | r, buf, ovf, [] => (r, buf, ovf, [])
  | r, buf, ovf, b :: B =>
    let o := capNext cap r buf ovf b
    let rest := capFeed cap o.state o.buf o.ovf B
    (rest.1, rest.2.1, rest.2.2.1, o.body.toList ++ rest.2.2.2)

/-- The outputs of `CancelTimer` (R175). -/
def cancelOut (s : State) : List Output := if s.timerRunning then [.tmrCancel] else []

/-- `cnt_retx` after a write of a timed exchange (R45): it counts every write but the first. -/
def retxAfter (s : State) : Nat := if 0 < s.retryCnt then bump s.params s.cntRetx else s.cntRetx

/-- What `Fail(e)` leaves (R176, R265). -/
def afterFail (e : Status) (s : State) : State :=
  { s with
    sess := .failed, phase := .idle, err := e, timerRunning := false
    out := s.out ++ cancelOut s ++ [.done e none] }

/-- What a write of a timed exchange leaves (R172). -/
def afterWrite (s : State) : State :=
  { s with
    timerRunning := true, timedOut := false
    cntTxFrames := bump s.params s.cntTxFrames, cntRetx := retxAfter s
    out := s.out ++ [.tx s.txf, .tmrStart s.timeout] }

/-- The state a timed exchange starts from, before its first bound test (R171). -/
def exchangeStart (p : TimedPhase) (F : Bytes) (s : State) : State :=
  { s with
    phase := timedPhase p, txf := F, retryCnt := 0, timerRunning := false, timedOut := false
    recState := .idle, recCtrl := 0x00 }

/-- A timed exchange after its first write, which is no retransmission (R171, R172). -/
def exchangeWaiting (p : TimedPhase) (F : Bytes) (s : State) : State :=
  { exchangeStart p F s with
    timerRunning := true, cntTxFrames := bump s.params s.cntTxFrames
    out := s.out ++ [.tx F, .tmrStart s.timeout] }

/-- Instructions run one after another, stopping at the first fault or refusal. -/
def execAll : List Instr → State → Res
  | [], s => .next s
  | i :: rest, s => andThen (exec i s) (execAll rest)

/-- One read of the channel: an empty one (`none`), or one that brings a byte. -/
def readOf : Option Byte → Instr
  | none => .tick
  | some b => .rxbyteSup b

/-- Expiries, each followed by one read. With empty reads it is the pseudo-input `timeout` of R104, repeated. -/
def expiries : List (Option Byte) → List Instr
  | [] => []
  | r :: rs => .expire :: readOf r :: expiries rs

/-- The bytes that the reads brought, in order. -/
def bytesRead (rs : List (Option Byte)) : Bytes := rs.filterMap id

/-- Two states that agree but for the three statistics counters. -/
def SameButCounters (s t : State) : Prop :=
  t = { s with cntTxFrames := t.cntTxFrames, cntRxFrames := t.cntRxFrames, cntRetx := t.cntRetx }

end Sys2Proof.Machine
end

