-- ==== Sys2Proof/Certificates/Slice0/Obligations.lean ====
section
/-! DEFINITION. The statements for the provers. Each docstring names the rule of spec/ it formalises, or says what it
is derived from; a statement that rests on a choice of the model names its log entry. -/

open Sys2Proof Sys2Proof.Machine

/-! ## The codec -/

/-- R121: BCC2 is the running exclusive-or, identity `0x00`; appending it folds to `0x00`. -/
def Obligations.CheckByteIsTheRunningXor : Prop :=
  ∀ (P : Bytes) (b : Byte),
    bcc2 P = fold P ∧ fold [] = 0x00 ∧ fold (P ++ [b]) = fold P ^^^ b ∧ fold (P ++ [bcc2 P]) = 0x00

/-- R122: the equations of STUFF, its length bounds, and that it leaves no flag and no unpaired escape. -/
def Obligations.StuffFollowsItsEquations : Prop :=
  stuff [] = [] ∧
  (∀ (b : Byte) (B : Bytes),
    stuff (b :: B) = (if b = 0x7E then [0x7D, 0x5E] else if b = 0x7D then [0x7D, 0x5D] else [b]) ++ stuff B) ∧
  (∀ B : Bytes, B.length ≤ (stuff B).length ∧ (stuff B).length ≤ 2 * B.length ∧ (0x7E : Byte) ∉ stuff B) ∧
  (∀ X Y : Bytes, stuff (X ++ Y) = stuff X ++ stuff Y) ∧
  (∀ B U V : Bytes, stuff B = U ++ 0x7D :: V → V.head? = some 0x5E ∨ V.head? = some 0x5D)

/-- R123: the equations of DESTUFF (`none` is MalformedEscape), that it undoes STUFF, and that it never lengthens. -/
def Obligations.DestuffFollowsItsEquations : Prop :=
  destuff [] = some [] ∧
  destuff [0x7D] = none ∧
  (∀ S : Bytes, destuff (0x7D :: 0x5E :: S) = (destuff S).map (0x7E :: ·)) ∧
  (∀ S : Bytes, destuff (0x7D :: 0x5D :: S) = (destuff S).map (0x7D :: ·)) ∧
  (∀ (x : Byte) (S : Bytes), x ≠ 0x5E → x ≠ 0x5D → destuff (0x7D :: x :: S) = (destuff (x :: S)).map (0x7D :: ·)) ∧
  (∀ (b : Byte) (S : Bytes), b ≠ 0x7D → destuff (b :: S) = (destuff S).map (b :: ·)) ∧
  (∀ B : Bytes, destuff (stuff B) = some B) ∧
  (∀ S D : Bytes, destuff S = some D → D.length ≤ S.length)

/-- R124, R125: the two encoders give the two frame formats; an I frame has its flags at its ends only. -/
def Obligations.EncodersGiveTheFrameFormats : Prop :=
  (∀ a c : Byte, encSup a c = [0x7E, a, c, a ^^^ c, 0x7E]) ∧
  (∀ (b : Bit) (P : Bytes),
    encInfo b P =
      ([0x7E, 0x03, b.zeroExtend 8 <<< 6, 0x03 ^^^ (b.zeroExtend 8 <<< 6)] : Bytes) ++ stuff P ++ stuff [bcc2 P] ++ [0x7E]) ∧
  (∀ (b : Bit) (P : Bytes),
    6 ≤ (encInfo b P).length ∧ (encInfo b P).length ≤ 2 * P.length + 7 ∧
    (0x7E : Byte) ∉ ((encInfo b P).drop 1).dropLast)

/-- R126: DEC_INFO tests overflow and length, then the header, then the escapes, then the check byte. -/
def Obligations.DecInfoChecksInOrder : Prop :=
  (∀ B : Bytes, decInfo B true = .headerBad) ∧
  (∀ (B : Bytes) (ovf : Bool), B.length < 3 → decInfo B ovf = .headerBad) ∧
  (∀ (a c k : Byte) (S : Bytes) (ovf : Bool),
    a ≠ 0x03 ∨ (c ≠ 0x00 ∧ c ≠ 0x40) ∨ k ≠ a ^^^ c → decInfo (a :: c :: k :: S) ovf = .headerBad) ∧
  (∀ (c : Byte) (S : Bytes), c = 0x00 ∨ c = 0x40 → destuff S = none →
    decInfo (0x03 :: c :: (0x03 ^^^ c) :: S) false = .escapeBad) ∧
  (∀ (c : Byte) (S : Bytes), c = 0x00 ∨ c = 0x40 → destuff S = some [] →
    decInfo (0x03 :: c :: (0x03 ^^^ c) :: S) false = .checksumBad) ∧
  (∀ (c k : Byte) (S P : Bytes), c = 0x00 ∨ c = 0x40 → destuff S = some (P ++ [k]) →
    decInfo (0x03 :: c :: (0x03 ^^^ c) :: S) false =
      if fold P = k then .good (if c = 0x40 then 1 else 0) P else .checksumBad)

/-- Derived from 40_codec.md section 5 (R127, which the spec derives): a frame without its flags decodes to its
sequence bit and payload, and only the two I headers decode well. -/
def Obligations.InformationFrameRoundTrips : Prop :=
  (∀ (b : Bit) (P : Bytes), decInfo ((encInfo b P).drop 1).dropLast false = .good b P) ∧
  (∀ (B : Bytes) (ovf : Bool) (b : Bit) (P : Bytes), decInfo B ovf = .good b P →
    ovf = false ∧ B.take 3 = if b = 0 then [0x03, 0x00, 0x03] else [0x03, 0x40, 0x43])

/-- Derived (the field `ret` is the model's, log entry 9): the seven codec rows complete in every state, return their
function's value and write no register. -/
def Obligations.CodecRowsReturnTheirFunction : Prop :=
  ∀ (s : State) (a c : Byte) (b : Bit) (B : Bytes) (ovf : Bool),
    exec (.bcc1 a c) s = .next { s with ret := .byte (a ^^^ c) } ∧
    exec (.bcc2 B) s = .next { s with ret := .byte (B.foldl (· ^^^ ·) 0x00) } ∧
    exec (.stuff B) s = .next { s with ret := .bytes (stuff B) } ∧
    exec (.destuff B) s = .next { s with ret := .destuffed (destuff B) } ∧
    exec (.encSup a c) s = .next { s with ret := .bytes [0x7E, a, c, a ^^^ c, 0x7E] } ∧
    exec (.encInfo b B) s = .next { s with ret := .bytes (encInfo b B) } ∧
    exec (.decInfo B ovf) s = .next { s with ret := .decoded (decInfo B ovf) }

/-! ## The scanners -/

/-- R141 to R145: the recognizer's transition table, one clause a state; expected value first, flag second. -/
def Obligations.RecognizerTransitionTable : Prop :=
  ∀ (x : Expectation) (k b : Byte),
    recNext x .idle k b = ⟨if b = 0x7E then .flag else .idle, k, none⟩ ∧
    recNext x .flag k b = ⟨if b = x.addr then .addr else if b = 0x7E then .flag else .idle, k, none⟩ ∧
    recNext x .addr k b =
      (if b ∈ x.ctrls then ⟨.ctrl, b, none⟩ else ⟨if b = 0x7E then .flag else .idle, k, none⟩) ∧
    recNext x .ctrl k b = ⟨if b = x.addr ^^^ k then .bcc else if b = 0x7E then .flag else .idle, k, none⟩ ∧
    recNext x .bcc k b = ⟨.idle, k, if b = 0x7E then some k else none⟩

/-- R151 to R154: the capture's transition table, one clause a state, with the overflow clause; an overflowed body is
HeaderBad. -/
def Obligations.CaptureTransitionTable : Prop :=
  ∀ (cap : Option Nat) (buf : Bytes) (ovf : Bool) (b : Byte),
    (b = 0x7E → capNext cap .idle buf ovf b = ⟨.flag, [], false, none⟩) ∧
    (b ≠ 0x7E → capNext cap .idle buf ovf b = ⟨.idle, buf, ovf, none⟩) ∧
    (b = 0x7E → capNext cap .flag buf ovf b = ⟨.flag, buf, ovf, none⟩) ∧
    (b ≠ 0x7E → capNext cap .flag buf ovf b = ⟨.body, [b], ovf, none⟩) ∧
    (b = 0x7E → capNext cap .body buf ovf b = ⟨.idle, [], false, some (buf, ovf)⟩) ∧
    (b ≠ 0x7E → (cap = none ∨ ∃ n, cap = some n ∧ buf.length < n) →
      capNext cap .body buf ovf b = ⟨.body, buf ++ [b], ovf, none⟩) ∧
    (b ≠ 0x7E → (∃ n, cap = some n ∧ n ≤ buf.length) → capNext cap .body buf ovf b = ⟨.body, buf, true, none⟩) ∧
    decInfo buf true = .headerBad

/-- Derived (rows RecStep and CapStep return into the model's `ret`, log entry 9): RecStep completes in every phase
that has an expectation, CapStep in every state, and each writes its own registers only. Where the phase has no
expectation RecStep stops (log entry 10). -/
def Obligations.ScannerRowsComplete : Prop :=
  ∀ (s : State) (b : Byte),
    (∀ x, expectation s.phase = some x →
      exec (.recStep b) s =
        .next { s with
          recState := (recNext x s.recState s.recCtrl b).state
          recCtrl := (recNext x s.recState s.recCtrl b).ctrl
          ret := .accept (recNext x s.recState s.recCtrl b).accept }) ∧
    (s.phase = .idle ∨ s.phase = .recvCapture → exec (.recStep b) s = .fault .noExpectation) ∧
    exec (.capStep b) s =
      .next { s with
        capState := (capNext (bodyCap s.params) s.capState s.capBuf s.capOvf b).state
        capBuf := (capNext (bodyCap s.params) s.capState s.capBuf s.capOvf b).buf
        capOvf := (capNext (bodyCap s.params) s.capState s.capBuf s.capOvf b).ovf
        ret := .body (capNext (bodyCap s.params) s.capState s.capBuf s.capOvf b).body }

/-- Derived from 30_encoding.md section 4 (R98(a), R99, R100): of all five-byte sequences a fresh recognizer accepts
exactly the frames of its expectation, and reports their control byte. In every wait a flag takes R_FLAG, R_ADDR and
R_CTRL to R_FLAG, as a flag test made first would (R264(e); the order of the tests is log entry 32). -/
def Obligations.RecognizerAcceptsExactlyItsFrames : Prop :=
  (∀ (x : Expectation) (k f a c d g : Byte),
    (recFeed x .idle k [f, a, c, d, g]).2.2 =
      if f = 0x7E ∧ a = x.addr ∧ c ∈ x.ctrls ∧ d = a ^^^ c ∧ g = 0x7E then [c] else []) ∧
  (∀ (p : Phase) (x : Expectation) (k : Byte), expectation p = some x →
    recNext x .flag k 0x7E = ⟨.flag, k, none⟩ ∧ recNext x .addr k 0x7E = ⟨.flag, k, none⟩ ∧
    (k ∈ x.ctrls → recNext x .ctrl k 0x7E = ⟨.flag, k, none⟩))

/-- Derived from 41_recognizer.md R157(a) (which the spec derives): after noise without a flag, a fresh scanner yields
exactly one Accept, or one body, and yields it on the frame's last byte. The capture has any capacity whose MAX_PAYLOAD
admits the payload. -/
def Obligations.NoiseThenFrameYieldsOneResult : Prop :=
  ∀ (N : Bytes), (0x7E : Byte) ∉ N →
    (∀ (p : Phase) (x : Expectation) (k c : Byte), expectation p = some x → c ∈ x.ctrls →
      recFeed x .idle k (N ++ encSup x.addr c) = (.idle, c, [c]) ∧
      (recFeed x .idle k (N ++ (encSup x.addr c).dropLast)).2.2 = []) ∧
    (∀ (q : Params) (b : Bit) (P : Bytes), (∀ m, q.maxPayload = some m → P.length ≤ m) →
      capFeed (bodyCap q) .idle [] false (N ++ encInfo b P) =
        (.idle, [], false, [(((encInfo b P).drop 1).dropLast, false)]) ∧
      (capFeed (bodyCap q) .idle [] false (N ++ (encInfo b P).dropLast)).2.2.2 = [])

/-! ## The timed exchange -/

/-- R173: EXPIRE ends the attempt of a running timer and emits nothing; a stale one changes nothing. -/
def Obligations.ExpireEndsTheRunningAttempt : Prop :=
  ∀ s : State,
    (s.timerRunning = true →
      exec .expire s = .next { s with timerRunning := false, timedOut := true, retryCnt := s.retryCnt + 1 }) ∧
    (s.timerRunning = false → exec .expire s = .next s)

/-- R174: TICK runs the bound test in a phase of TIMED and changes nothing in an untimed phase. -/
def Obligations.TickRunsTheBoundTest : Prop :=
  ∀ s : State,
    (isTimed s.phase = true → exec .tick s = exec .loopCheck s) ∧
    (s.phase = .openRxWaitSet ∨ s.phase = .recvCapture ∨ s.phase = .closeRxWaitDisc → exec .tick s = .next s) ∧
    (isTimed s.phase = true → s.retryCnt < s.ntries → s.timerRunning = true → exec .tick s = .next s) ∧
    (isTimed s.phase = true → s.retryCnt < s.ntries → s.timerRunning = false → exec .tick s = .next (afterWrite s))

/-- R172: LoopCheck fails at the bound with the error of the phase, else writes `txf` and starts the timer if it does
not run; run twice in a row, the second run does nothing. -/
def Obligations.LoopCheckTestsTheBoundThenWrites : Prop :=
  ∀ (s : State) (e : Status), timeoutError s.phase = some e →
    (s.ntries ≤ s.retryCnt →
      exec .loopCheck s =
        .next { s with
          sess := .failed, phase := .idle, err := e, timerRunning := false
          out := s.out ++ (if s.timerRunning then [.tmrCancel] else []) ++ [.done e none] }) ∧
    (s.retryCnt < s.ntries → s.timerRunning = true → exec .loopCheck s = .next s) ∧
    (s.retryCnt < s.ntries → s.timerRunning = false →
      exec .loopCheck s =
        .next { s with
          timerRunning := true, timedOut := false
          cntTxFrames := bump s.params s.cntTxFrames
          cntRetx := if 0 < s.retryCnt then bump s.params s.cntRetx else s.cntRetx
          out := s.out ++ [.tx s.txf, .tmrStart s.timeout] }) ∧
    (∀ t, exec .loopCheck s = .next t → exec .loopCheck t = .next t)

/-- R171: StartTimed latches the frame, clears the exchange's registers and the recognizer, and runs LoopCheck: a write
with `ntries > 0`, the phase's error at once with `ntries = 0`. -/
def Obligations.StartTimedLatchesAndWrites : Prop :=
  ∀ (s : State) (p : TimedPhase) (F : Bytes),
    (0 < s.ntries →
      exec (.startTimed p F) s =
        .next { s with
          phase := timedPhase p, txf := F, retryCnt := 0, timerRunning := true, timedOut := false
          recState := .idle, recCtrl := 0x00, cntTxFrames := bump s.params s.cntTxFrames
          out := s.out ++ [.tx F, .tmrStart s.timeout] }) ∧
    (s.ntries = 0 →
      ∃ e, timeoutError (timedPhase p) = some e ∧
        exec (.startTimed p F) s =
          .next { s with
            phase := .idle, sess := .failed, err := e, txf := F, retryCnt := 0, timerRunning := false
            timedOut := false, recState := .idle, recCtrl := 0x00, out := s.out ++ [.done e none] })

/-- R175, R176, R181: CancelTimer, Fail and WriteFrame complete in every state, with the registers and outputs their
rules list and nothing else. The count of frames written is unbounded or wraps modulo `2^CNT_W` (R43, R309). -/
def Obligations.CancelFailAndWriteComplete : Prop :=
  ∀ (s : State) (e : Status) (F : Bytes),
    (s.timerRunning = true →
      exec .cancelTimer s = .next { s with timerRunning := false, out := s.out ++ [.tmrCancel] }) ∧
    (s.timerRunning = false → exec .cancelTimer s = .next s) ∧
    exec (.fail e) s =
      .next { s with
        sess := .failed, phase := .idle, err := e, timerRunning := false
        out := s.out ++ (if s.timerRunning then [.tmrCancel] else []) ++ [.done e none] } ∧
    (s.params.cntW = none →
      exec (.writeFrame F) s = .next { s with cntTxFrames := s.cntTxFrames + 1, out := s.out ++ [.tx F] }) ∧
    (∀ w, s.params.cntW = some w →
      exec (.writeFrame F) s =
        .next { s with cntTxFrames := (s.cntTxFrames + 1) % 2 ^ w, out := s.out ++ [.tx F] })

/-- Derived from 42_timed_exchange.md section 3 (R178): a timed exchange, then expiries, each followed by one read
that is empty or brings a byte, where the recognizer accepts no frame among the bytes read. Every read writes the
frame again and starts the timer again while the bound is not reached; after `ntries` expiries the frame has been
written exactly `ntries` times and the operation has failed. The counts are exact where CNT_W is unbounded. -/
def Obligations.FrameIsWrittenExactlyNtriesTimes : Prop :=
  ∀ (s : State) (p : TimedPhase) (F : Bytes) (x : Expectation) (rs : List (Option Byte)),
    0 < s.ntries → expectation (timedPhase p) = some x → (recFeed x .idle 0x00 (bytesRead rs)).2.2 = [] →
    (bytesRead rs ≠ [] → s.rxq = []) →
    (rs.length < s.ntries →
      ∃ t, execAll (.startTimed p F :: expiries rs) s = .next t ∧ t.phase = timedPhase p ∧
        t.retryCnt = rs.length ∧ t.timerRunning = true ∧
        t.out = s.out ++ (List.replicate (rs.length + 1) [Output.tx F, Output.tmrStart s.timeout]).flatten ∧
        (s.params.cntW = none →
          t.cntTxFrames = s.cntTxFrames + (rs.length + 1) ∧ t.cntRetx = s.cntRetx + rs.length)) ∧
    (rs.length = s.ntries →
      ∃ t e, timeoutError (timedPhase p) = some e ∧
        execAll (.startTimed p F :: expiries rs) s = .next t ∧ t.phase = .idle ∧ t.sess = .failed ∧ t.err = e ∧
        t.retryCnt = s.ntries ∧
        t.out =
          s.out ++ (List.replicate s.ntries [Output.tx F, Output.tmrStart s.timeout]).flatten ++ [.done e none] ∧
        (s.params.cntW = none →
          t.cntTxFrames = s.cntTxFrames + s.ntries ∧ t.cntRetx = s.cntRetx + (s.ntries - 1)))

/-- Derived from 42_timed_exchange.md section 3 (R179, which the spec derives): after an expiry, whatever `retry_cnt`
is, the closing flag of the awaited reply still succeeds, and no TMR_CANCEL is emitted. -/
def Obligations.ReplyBeatsExpiry : Prop :=
  ∀ s : State, s.rxq = [] → s.recState = .bcc → s.timerRunning = false →
    (s.phase = .openTxWaitUa → s.recCtrl = 0x07 →
      exec (.rxbyteSup 0x7E) s =
        .next { s with
          recState := .idle, cntRxFrames := bump s.params s.cntRxFrames, sess := .opened, phase := .idle
          out := s.out ++ [.done .ok none] }) ∧
    (s.phase = .sendWaitAck → s.recCtrl = cRR (~~~ s.ns) →
      exec (.rxbyteSup 0x7E) s =
        .next { s with
          recState := .idle, cntRxFrames := bump s.params s.cntRxFrames, ns := ~~~ s.ns, phase := .idle
          out := s.out ++ [.done .ok none] }) ∧
    (s.phase = .closeRxWaitUa → s.recCtrl = 0x07 →
      exec (.rxbyteSup 0x7E) s =
        .next { s with
          recState := .idle, cntRxFrames := bump s.params s.cntRxFrames, sess := .closed, phase := .idle
          out := s.out ++ [.chanClose, .done .ok none] }) ∧
    (s.phase = .closeTxWaitDisc → s.recCtrl = 0x0B →
      exec (.rxbyteSup 0x7E) s =
        .next { s with
          recState := .idle, cntRxFrames := bump s.params s.cntRxFrames, sess := .closed, phase := .idle
          cntTxFrames := bump s.params s.cntTxFrames
          out := s.out ++ [.tx [0x7E, 0x03, 0x07, 0x04, 0x7E], .chanClose, .done .ok none] })

/-! ## The host commands -/

/-- R191: OPEN in both roles, with `ntries = 0`, and refused outside CLOSED. -/
def Obligations.OpenStartsASession : Prop :=
  ∀ (s : State) (n d : Nat), s.phase = .idle →
    (s.sess = .closed → 0 < n →
      exec (.openCmd .tx n d) s =
        .next { s with
          role := .tx, ntries := n, timeout := d, ns := 0, nr := 0, lrfn := 1, err := .ok, sess := .opening
          cntTxFrames := bump s.params 0, cntRxFrames := 0, cntRetx := 0
          phase := .openTxWaitUa, txf := [0x7E, 0x03, 0x03, 0x00, 0x7E], retryCnt := 0
          timerRunning := true, timedOut := false, recState := .idle, recCtrl := 0x00
          out := s.out ++ [.tx [0x7E, 0x03, 0x03, 0x00, 0x7E], .tmrStart d] }) ∧
    (s.sess = .closed →
      exec (.openCmd .tx 0 d) s =
        .next { s with
          role := .tx, ntries := 0, timeout := d, ns := 0, nr := 0, lrfn := 1, err := .connectionTimeout
          sess := .failed, cntTxFrames := 0, cntRxFrames := 0, cntRetx := 0
          phase := .idle, txf := [0x7E, 0x03, 0x03, 0x00, 0x7E], retryCnt := 0
          timerRunning := false, timedOut := false, recState := .idle, recCtrl := 0x00
          out := s.out ++ [.done .connectionTimeout none] }) ∧
    (s.sess = .closed →
      exec (.openCmd .rx n d) s =
        .next { s with
          role := .rx, ntries := n, timeout := d, ns := 0, nr := 0, lrfn := 1, err := .ok, sess := .opening
          cntTxFrames := 0, cntRxFrames := 0, cntRetx := 0
          phase := .openRxWaitSet, recState := .idle, recCtrl := 0x00 }) ∧
    (s.sess ≠ .closed → ∀ r,
      exec (.openCmd r n d) s = .next { s with out := s.out ++ [.done .illegalCommand none] })

/-- R196: CLOSE in both roles, with `ntries = 0`, and refused outside OPEN. -/
def Obligations.CloseStartsTheHandshake : Prop :=
  ∀ s : State, s.phase = .idle →
    (s.sess = .opened → s.role = .tx → 0 < s.ntries →
      exec .closeCmd s =
        .next { s with
          sess := .closing, phase := .closeTxWaitDisc, txf := [0x7E, 0x03, 0x0B, 0x08, 0x7E], retryCnt := 0
          timerRunning := true, timedOut := false, recState := .idle, recCtrl := 0x00
          cntTxFrames := bump s.params s.cntTxFrames
          out := s.out ++ [.tx [0x7E, 0x03, 0x0B, 0x08, 0x7E], .tmrStart s.timeout] }) ∧
    (s.sess = .opened → s.role = .tx → s.ntries = 0 →
      exec .closeCmd s =
        .next { s with
          sess := .failed, phase := .idle, err := .disconnectTimeout, txf := [0x7E, 0x03, 0x0B, 0x08, 0x7E]
          retryCnt := 0, timerRunning := false, timedOut := false, recState := .idle, recCtrl := 0x00
          out := s.out ++ [.done .disconnectTimeout none] }) ∧
    (s.sess = .opened → s.role = .rx →
      exec .closeCmd s =
        .next { s with sess := .closing, phase := .closeRxWaitDisc, recState := .idle, recCtrl := 0x00 }) ∧
    (s.sess ≠ .opened → exec .closeCmd s = .next { s with out := s.out ++ [.done .illegalCommand none] })

/-- R220: SEND encodes once with `ns`, latches and writes; refuses an illegal state and then a payload over
MAX_PAYLOAD; with `ntries = 0` fails at once. -/
def Obligations.SendStartsTheExchange : Prop :=
  ∀ (s : State) (P : Bytes), s.phase = .idle →
    (s.sess = .opened → s.role = .tx → (∀ m, s.params.maxPayload = some m → P.length ≤ m) → 0 < s.ntries →
      exec (.sendCmd P) s =
        .next { s with
          phase := .sendWaitAck, txf := encInfo s.ns P, retryCnt := 0, timerRunning := true, timedOut := false
          recState := .idle, recCtrl := 0x00, cntTxFrames := bump s.params s.cntTxFrames
          out := s.out ++ [.tx (encInfo s.ns P), .tmrStart s.timeout] }) ∧
    (s.sess = .opened → s.role = .tx → (∀ m, s.params.maxPayload = some m → P.length ≤ m) → s.ntries = 0 →
      exec (.sendCmd P) s =
        .next { s with
          sess := .failed, phase := .idle, err := .maxRetransmissionsExceeded, txf := encInfo s.ns P
          retryCnt := 0, timerRunning := false, timedOut := false, recState := .idle, recCtrl := 0x00
          out := s.out ++ [.done .maxRetransmissionsExceeded none] }) ∧
    (∀ m, s.sess = .opened → s.role = .tx → s.params.maxPayload = some m → m < P.length →
      exec (.sendCmd P) s = .next { s with out := s.out ++ [.done .payloadTooLong none] }) ∧
    (s.sess ≠ .opened ∨ s.role = .rx →
      exec (.sendCmd P) s = .next { s with out := s.out ++ [.done .illegalCommand none] })

/-- R225: RECEIVE starts a fresh capture; refused outside an open session of the Receiver. -/
def Obligations.ReceiveStartsTheCapture : Prop :=
  ∀ s : State, s.phase = .idle →
    (s.sess = .opened → s.role = .rx →
      exec .receiveCmd s =
        .next { s with phase := .recvCapture, capState := .idle, capBuf := [], capOvf := false }) ∧
    (s.sess ≠ .opened ∨ s.role = .tx →
      exec .receiveCmd s = .next { s with out := s.out ++ [.done .illegalCommand none] })

/-- R205: NOP changes nothing and emits nothing; codes 5, 6 and 7 are refused. -/
def Obligations.NopAndReservedCodes : Prop :=
  ∀ s : State, s.phase = .idle →
    exec .nop s = .next s ∧
    exec .reserved5 s = .next { s with out := s.out ++ [.done .illegalCommand none] } ∧
    exec .reserved6 s = .next { s with out := s.out ++ [.done .illegalCommand none] } ∧
    exec .reserved7 s = .next { s with out := s.out ++ [.done .illegalCommand none] }

/-- R204, R255: in P_IDLE a command of code 5, 6 or 7, or one that the matrix of R269 does not allow for `sess` and
`role`, is answered DONE(IllegalCommand) and changes no register. NOP does nothing in any row of the matrix. -/
def Obligations.IllegalCommandsChangeNothing : Prop :=
  ∀ (s : State) (i : Instr), s.phase = .idle → isCommand i = true →
    (i = .nop → exec i s = .next s) ∧
    (i ≠ .nop →
      (∀ r n d, i = .openCmd r n d → s.sess ≠ .closed) →
      (∀ P, i = .sendCmd P → ¬ (s.sess = .opened ∧ s.role = .tx)) →
      (i = .receiveCmd → ¬ (s.sess = .opened ∧ s.role = .rx)) →
      (i = .closeCmd → s.sess ≠ .opened) →
      exec i s = .next { s with out := s.out ++ [.done .illegalCommand none] })

/-! ## The accept rules -/

/-- R193, R195, R198, R201: the accepts that end a handshake, each in its phase. -/
def Obligations.HandshakeAcceptsEndTheirWait : Prop :=
  ∀ s : State,
    (s.phase = .openTxWaitUa →
      exec .acceptUaOpenTx s =
        .next { s with timerRunning := false, sess := .opened, phase := .idle,
                       out := s.out ++ cancelOut s ++ [.done .ok none] }) ∧
    (s.phase = .openRxWaitSet →
      exec .acceptSetOpenRx s =
        .next { s with sess := .opened, phase := .idle, cntTxFrames := bump s.params s.cntTxFrames,
                       out := s.out ++ [.tx [0x7E, 0x01, 0x07, 0x06, 0x7E], .done .ok none] }) ∧
    (s.phase = .closeTxWaitDisc →
      exec .acceptDiscCloseTx s =
        .next { s with timerRunning := false, sess := .closed, phase := .idle,
                       cntTxFrames := bump s.params s.cntTxFrames,
                       out := s.out ++ cancelOut s ++
                         [.tx [0x7E, 0x03, 0x07, 0x04, 0x7E], .chanClose, .done .ok none] }) ∧
    (s.phase = .closeRxWaitUa →
      exec .acceptUaCloseRx s =
        .next { s with timerRunning := false, sess := .closed, phase := .idle,
                       out := s.out ++ cancelOut s ++ [.chanClose, .done .ok none] })

/-- R200: the Receiver's accept of DISC starts the timed wait for the final UA with its own DISC; with `ntries = 0` it
fails and writes no DISC. -/
def Obligations.ReceiverAnswersDisc : Prop :=
  ∀ s : State, s.phase = .closeRxWaitDisc →
    (0 < s.ntries →
      exec .acceptDiscCloseRx s =
        .next { s with
          phase := .closeRxWaitUa, txf := [0x7E, 0x01, 0x0B, 0x0A, 0x7E], retryCnt := 0, timerRunning := true
          timedOut := false, recState := .idle, recCtrl := 0x00, cntTxFrames := bump s.params s.cntTxFrames
          out := s.out ++ [.tx [0x7E, 0x01, 0x0B, 0x0A, 0x7E], .tmrStart s.timeout] }) ∧
    (s.ntries = 0 →
      exec .acceptDiscCloseRx s =
        .next { s with
          phase := .idle, sess := .failed, err := .disconnectTimeout, txf := [0x7E, 0x01, 0x0B, 0x0A, 0x7E]
          retryCnt := 0, timerRunning := false, timedOut := false, recState := .idle, recCtrl := 0x00
          out := s.out ++ [.done .disconnectTimeout none] })

/-- Derived from R221, R223 and R177: in the reply wait of SEND, RR of `~ns` ends it and toggles `ns`; RR of `ns` is
counted and otherwise ignored: the timer keeps running and nothing is emitted. That the accept row itself does not
count is the model's reading (log entry 11): the count is RXBYTE's (R177), and the third clause has it. -/
def Obligations.AcknowledgementsInSend : Prop :=
  ∀ s : State, s.phase = .sendWaitAck →
    exec .acceptRrNext s =
      .next { s with timerRunning := false, ns := ~~~ s.ns, phase := .idle,
                     out := s.out ++ cancelOut s ++ [.done .ok none] } ∧
    exec .acceptRrSame s = .next s ∧
    (s.rxq = [] → s.recState = .bcc → s.recCtrl = cRR s.ns → s.timerRunning = true → s.retryCnt < s.ntries →
      exec (.rxbyteSup 0x7E) s =
        .next { s with recState := .idle, cntRxFrames := bump s.params s.cntRxFrames })

/-- R222: a REJ of either bit ends a running attempt and charges it once; with the timer stopped it charges nothing. The
bound test that follows writes the same frame again, or at the bound fails the SEND. -/
def Obligations.RejectionsInSend : Prop :=
  ∀ (s : State) (b : Bit), s.phase = .sendWaitAck →
    (s.timerRunning = true →
      exec (.acceptRej b) s =
        .next { s with timerRunning := false, retryCnt := s.retryCnt + 1, out := s.out ++ [.tmrCancel] }) ∧
    (s.timerRunning = false → exec (.acceptRej b) s = .next s) ∧
    (s.timerRunning = true → s.retryCnt + 1 < s.ntries →
      execAll [.acceptRej b, .tick] s =
        .next { s with
          retryCnt := s.retryCnt + 1, timedOut := false, cntTxFrames := bump s.params s.cntTxFrames
          cntRetx := bump s.params s.cntRetx, out := s.out ++ [.tmrCancel, .tx s.txf, .tmrStart s.timeout] }) ∧
    (s.timerRunning = true → s.retryCnt + 1 = s.ntries →
      execAll [.acceptRej b, .tick] s =
        .next { s with
          timerRunning := false, retryCnt := s.retryCnt + 1, sess := .failed, phase := .idle
          err := .maxRetransmissionsExceeded
          out := s.out ++ [.tmrCancel, .done .maxRetransmissionsExceeded none] }) ∧
    (s.timerRunning = false → s.retryCnt < s.ntries →
      execAll [.acceptRej b, .tick] s = .next (afterWrite s)) ∧
    (s.timerRunning = false → s.ntries ≤ s.retryCnt →
      execAll [.acceptRej b, .tick] s =
        .next { s with
          sess := .failed, phase := .idle, err := .maxRetransmissionsExceeded
          out := s.out ++ [.done .maxRetransmissionsExceeded none] })

/-- Derived (log entries 5 and 10): where the spec gives a row no step it stops: a command outside P_IDLE (R9, R11(d)),
an ACCEPT or BODY row outside the phase it names, a BODY row with a body of another kind. LoopCheck outside TIMED does
nothing (log entry 33). -/
def Obligations.RowsStopWhereTheSpecGivesNoStep : Prop :=
  ∀ (s : State) (i : Instr) (b : Bit) (B : Bytes) (ovf : Bool),
    (isCommand i = true → s.phase ≠ .idle → exec i s = .fault .commandNotEnabled) ∧
    (isTimed s.phase = false → exec .loopCheck s = .next s) ∧
    (s.phase ≠ .openTxWaitUa → exec .acceptUaOpenTx s = .fault .acceptNotInPhase) ∧
    (s.phase ≠ .openRxWaitSet → exec .acceptSetOpenRx s = .fault .acceptNotInPhase) ∧
    (s.phase ≠ .closeTxWaitDisc → exec .acceptDiscCloseTx s = .fault .acceptNotInPhase) ∧
    (s.phase ≠ .closeRxWaitDisc → exec .acceptDiscCloseRx s = .fault .acceptNotInPhase) ∧
    (s.phase ≠ .closeRxWaitUa → exec .acceptUaCloseRx s = .fault .acceptNotInPhase) ∧
    (s.phase ≠ .sendWaitAck →
      exec .acceptRrNext s = .fault .acceptNotInPhase ∧ exec (.acceptRej b) s = .fault .acceptNotInPhase ∧
      exec .acceptRrSame s = .fault .acceptNotInPhase) ∧
    (s.phase ≠ .recvCapture →
      exec (.bodyHeaderBad B ovf) s = .fault .acceptNotInPhase ∧
      exec (.bodyEscapeBad B) s = .fault .acceptNotInPhase ∧
      exec (.bodyChecksumBad B) s = .fault .acceptNotInPhase ∧
      exec (.bodyDuplicate B) s = .fault .acceptNotInPhase ∧ exec (.bodyNew B) s = .fault .acceptNotInPhase) ∧
    (s.phase = .recvCapture →
      (decInfo B ovf ≠ .headerBad → exec (.bodyHeaderBad B ovf) s = .fault .bodyNotOfRow) ∧
      (decInfo B false ≠ .escapeBad → exec (.bodyEscapeBad B) s = .fault .bodyNotOfRow) ∧
      (decInfo B false ≠ .checksumBad → exec (.bodyChecksumBad B) s = .fault .bodyNotOfRow) ∧
      ((∀ P, decInfo B false ≠ .good s.lrfn P) → exec (.bodyDuplicate B) s = .fault .bodyNotOfRow) ∧
      ((∀ P, decInfo B false ≠ .good (~~~ s.lrfn) P) → exec (.bodyNew B) s = .fault .bodyNotOfRow))

/-- Derived from 43_connection.md R206 (which the spec derives; log entry 15): HandleAccept is the accept row of the
phase, for exactly the control bytes of the table, and stops on any other combination. -/
def Obligations.HandleAcceptDispatchesOnPhase : Prop :=
  ∀ (s : State) (c : Byte),
    (s.phase = .openTxWaitUa → c = 0x07 → exec (.handleAccept c) s = exec .acceptUaOpenTx s) ∧
    (s.phase = .openRxWaitSet → c = 0x03 → exec (.handleAccept c) s = exec .acceptSetOpenRx s) ∧
    (s.phase = .closeTxWaitDisc → c = 0x0B → exec (.handleAccept c) s = exec .acceptDiscCloseTx s) ∧
    (s.phase = .closeRxWaitDisc → c = 0x0B → exec (.handleAccept c) s = exec .acceptDiscCloseRx s) ∧
    (s.phase = .closeRxWaitUa → c = 0x07 → exec (.handleAccept c) s = exec .acceptUaCloseRx s) ∧
    (s.phase = .sendWaitAck → s.ns = 0 →
      exec (.handleAccept 0x85) s = exec .acceptRrNext s ∧ exec (.handleAccept 0x05) s = .next s) ∧
    (s.phase = .sendWaitAck → s.ns = 1 →
      exec (.handleAccept 0x05) s = exec .acceptRrNext s ∧ exec (.handleAccept 0x85) s = .next s) ∧
    (s.phase = .sendWaitAck →
      exec (.handleAccept 0x01) s = exec (.acceptRej 0) s ∧ exec (.handleAccept 0x81) s = exec (.acceptRej 1) s) ∧
    ((∀ x, expectation s.phase = some x → c ∉ x.ctrls) → exec (.handleAccept c) s = .fault .acceptNotExpected)

/-! ## Bytes of the line -/

/-- R177: in a supervision wait RXBYTE runs RecStep; without an Accept the bound test follows (TICK's effect); with one
it is counted, dispatched by HandleAccept, and then the bound test follows on the phase as it is then. -/
def Obligations.SupervisionByteRunsTheRecognizer : Prop :=
  ∀ (s : State) (x : Expectation) (b : Byte), expectation s.phase = some x → s.rxq = [] →
    ((recNext x s.recState s.recCtrl b).accept = none →
      exec (.rxbyteSup b) s =
        exec .tick { s with
          recState := (recNext x s.recState s.recCtrl b).state, recCtrl := (recNext x s.recState s.recCtrl b).ctrl }) ∧
    ((recNext x s.recState s.recCtrl b).accept = none → s.retryCnt < s.ntries → s.timerRunning = true →
      exec (.rxbyteSup b) s =
        .next { s with
          recState := (recNext x s.recState s.recCtrl b).state, recCtrl := (recNext x s.recState s.recCtrl b).ctrl }) ∧
    (∀ c, (recNext x s.recState s.recCtrl b).accept = some c →
      exec (.rxbyteSup b) s =
        execAll [.handleAccept c, .tick] { s with
          recState := .idle, recCtrl := c, cntRxFrames := bump s.params s.cntRxFrames })

/-- R226: in P_RECV_CAPTURE RXBYTE runs CapStep, and ProcessBody on a completed body; TICK and an EXPIRE with no timer
running change nothing. -/
def Obligations.CaptureByteRunsTheCapture : Prop :=
  ∀ (s : State) (b : Byte), s.phase = .recvCapture → s.rxq = [] →
    ((capNext (bodyCap s.params) s.capState s.capBuf s.capOvf b).body = none →
      exec (.rxbyteCap b) s =
        .next { s with
          capState := (capNext (bodyCap s.params) s.capState s.capBuf s.capOvf b).state
          capBuf := (capNext (bodyCap s.params) s.capState s.capBuf s.capOvf b).buf
          capOvf := (capNext (bodyCap s.params) s.capState s.capBuf s.capOvf b).ovf }) ∧
    (∀ B ovf, (capNext (bodyCap s.params) s.capState s.capBuf s.capOvf b).body = some (B, ovf) →
      exec (.rxbyteCap b) s =
        exec (.processBody B ovf) { s with capState := .idle, capBuf := [], capOvf := false }) ∧
    exec .tick s = .next s ∧ (s.timerRunning = false → exec .expire s = .next s)

/-- R227: ProcessBody completes in every state, by the result of DEC_INFO and then by the sequence bit. -/
def Obligations.ProcessBodyAnswersEveryBody : Prop :=
  ∀ (s : State) (B : Bytes) (ovf : Bool),
    (decInfo B ovf = .headerBad →
      exec (.processBody B ovf) s =
        .next { s with cntTxFrames := bump s.params s.cntTxFrames,
                       out := s.out ++ [.ev .frameRejected, .tx (encSup 0x01 (cRej s.nr))] }) ∧
    (decInfo B ovf = .escapeBad →
      exec (.processBody B ovf) s =
        .next { s with cntTxFrames := bump s.params s.cntTxFrames,
                       out := s.out ++ [.ev .malformedEscape, .tx (encSup 0x01 (cRej s.nr))] }) ∧
    (decInfo B ovf = .checksumBad →
      exec (.processBody B ovf) s =
        .next { s with cntTxFrames := bump s.params s.cntTxFrames,
                       out := s.out ++ [.ev .checksumMismatch, .tx (encSup 0x01 (cRej s.nr))] }) ∧
    (∀ b P, decInfo B ovf = .good b P → b = s.lrfn →
      exec (.processBody B ovf) s =
        .next { s with cntRxFrames := bump s.params s.cntRxFrames, cntTxFrames := bump s.params s.cntTxFrames,
                       out := s.out ++ [.ev .duplicateFrame, .tx (encSup 0x01 (cRR s.nr))] }) ∧
    (∀ b P, decInfo B ovf = .good b P → b ≠ s.lrfn →
      exec (.processBody B ovf) s =
        .next { s with cntRxFrames := bump s.params s.cntRxFrames, cntTxFrames := bump s.params s.cntTxFrames,
                       lrfn := b, nr := ~~~ s.nr, phase := .idle,
                       out := s.out ++ [.tx (encSup 0x01 (cRR (~~~ s.nr))), .done .ok (some P)] })

/-- Derived from R228 to R232 with R227: each BODY row, in P_RECV_CAPTURE with a body of its kind, has the effect of
its rule; `phase` stays but for a new frame. That the rows of good bodies count the frame themselves is ProcessBody's
pseudocode (R227) attributed to the row (log entry 11). -/
def Obligations.BodyRowsAnswerTheirBody : Prop :=
  ∀ (s : State) (B : Bytes) (ovf : Bool), s.phase = .recvCapture →
    (decInfo B ovf = .headerBad →
      exec (.bodyHeaderBad B ovf) s =
        .next { s with cntTxFrames := bump s.params s.cntTxFrames,
                       out := s.out ++ [.ev .frameRejected, .tx (encSup 0x01 (cRej s.nr))] }) ∧
    (decInfo B false = .escapeBad →
      exec (.bodyEscapeBad B) s =
        .next { s with cntTxFrames := bump s.params s.cntTxFrames,
                       out := s.out ++ [.ev .malformedEscape, .tx (encSup 0x01 (cRej s.nr))] }) ∧
    (decInfo B false = .checksumBad →
      exec (.bodyChecksumBad B) s =
        .next { s with cntTxFrames := bump s.params s.cntTxFrames,
                       out := s.out ++ [.ev .checksumMismatch, .tx (encSup 0x01 (cRej s.nr))] }) ∧
    (∀ b P, decInfo B false = .good b P → b = s.lrfn →
      exec (.bodyDuplicate B) s =
        .next { s with cntRxFrames := bump s.params s.cntRxFrames, cntTxFrames := bump s.params s.cntTxFrames,
                       out := s.out ++ [.ev .duplicateFrame, .tx (encSup 0x01 (cRR s.nr))] }) ∧
    (∀ b P, decInfo B false = .good b P → b ≠ s.lrfn →
      exec (.bodyNew B) s =
        .next { s with cntRxFrames := bump s.params s.cntRxFrames, cntTxFrames := bump s.params s.cntTxFrames,
                       lrfn := b, nr := ~~~ s.nr, phase := .idle,
                       out := s.out ++ [.tx (encSup 0x01 (cRR (~~~ s.nr))), .done .ok (some P)] })

/-- Derived from 20_memory.md R63 (the queue in State is log entry 4, frame and pair rows are arrivals by log entries 6
and 7): in P_IDLE arriving bytes wait; elsewhere a byte that arrives behind others waits and the oldest is taken. -/
def Obligations.BytesAreTakenOldestFirst : Prop :=
  (∀ (s : State) (b : Byte), s.phase = .idle →
    exec (.rxbyteSup b) s = .next { s with rxq := s.rxq ++ [b] } ∧
    exec (.rxbyteCap b) s = .next { s with rxq := s.rxq ++ [b] }) ∧
  (∀ (s : State) (b h : Byte) (q : Bytes), s.phase ≠ .idle → s.rxq = h :: q →
    exec (.rxbyteSup b) s =
      andThen (exec (.rxbyteSup h) { s with rxq := [] }) (fun t => .next { t with rxq := q ++ [b] }) ∧
    exec (.rxbyteCap b) s =
      andThen (exec (.rxbyteCap h) { s with rxq := [] }) (fun t => .next { t with rxq := q ++ [b] })) ∧
  (∀ (s : State) (i : Instr), isArrival i = true → s.phase = .idle →
    exec i s = .next { s with rxq := s.rxq ++ wireBytes i })

/-- Derived from R90 to R92 with R104 (log entry 6): a whole handshake frame, read by the wait that expects it, is
accepted and has the accept rule's effect; the recognizer is not inside the last step of another frame. -/
def Obligations.HandshakeFramesCompleteTheirWait : Prop :=
  ∀ s : State, Coherent s → s.rxq = [] → s.recState ≠ .bcc →
    (s.phase = .openRxWaitSet →
      exec .set s =
        .next { s with
          recState := .idle, recCtrl := 0x03, cntRxFrames := bump s.params s.cntRxFrames
          cntTxFrames := bump s.params s.cntTxFrames, sess := .opened, phase := .idle
          out := s.out ++ [.tx [0x7E, 0x01, 0x07, 0x06, 0x7E], .done .ok none] }) ∧
    (s.phase = .openTxWaitUa → s.timerRunning = true → s.retryCnt < s.ntries →
      exec .uaRx s =
        .next { s with
          recState := .idle, recCtrl := 0x07, cntRxFrames := bump s.params s.cntRxFrames
          timerRunning := false, sess := .opened, phase := .idle, out := s.out ++ [.tmrCancel, .done .ok none] }) ∧
    (s.phase = .closeTxWaitDisc → s.timerRunning = true → s.retryCnt < s.ntries →
      exec .discRx s =
        .next { s with
          recState := .idle, recCtrl := 0x0B, cntRxFrames := bump s.params s.cntRxFrames
          cntTxFrames := bump s.params s.cntTxFrames, timerRunning := false, sess := .closed, phase := .idle
          out := s.out ++ [.tmrCancel, .tx [0x7E, 0x03, 0x07, 0x04, 0x7E], .chanClose, .done .ok none] }) ∧
    (s.phase = .closeRxWaitDisc → 0 < s.ntries →
      exec .discTx s =
        .next { s with
          phase := .closeRxWaitUa, txf := [0x7E, 0x01, 0x0B, 0x0A, 0x7E], retryCnt := 0, timerRunning := true
          timedOut := false, recState := .idle, recCtrl := 0x00, cntRxFrames := bump s.params s.cntRxFrames
          cntTxFrames := bump s.params s.cntTxFrames
          out := s.out ++ [.tx [0x7E, 0x01, 0x0B, 0x0A, 0x7E], .tmrStart s.timeout] }) ∧
    (s.phase = .closeRxWaitUa → s.timerRunning = true → s.retryCnt < s.ntries →
      exec .uaTx s =
        .next { s with
          recState := .idle, recCtrl := 0x07, cntRxFrames := bump s.params s.cntRxFrames
          timerRunning := false, sess := .closed, phase := .idle
          out := s.out ++ [.tmrCancel, .chanClose, .done .ok none] })

/-- Derived from R93, R221, R223 with R104 (log entry 6): a whole RR frame in the reply wait of SEND. RR of the other
bit than `ns` ends the SEND, RR of `ns` is counted and ignored. -/
def Obligations.RrFramesAnswerASend : Prop :=
  ∀ (s : State) (b : Bit), Coherent s → s.rxq = [] → s.recState ≠ .bcc → s.phase = .sendWaitAck →
    s.timerRunning = true → s.retryCnt < s.ntries →
    (b ≠ s.ns →
      exec (if b = 0 then .rr0 else .rr1) s =
        .next { s with
          recState := .idle, recCtrl := cRR b, cntRxFrames := bump s.params s.cntRxFrames, ns := b
          timerRunning := false, phase := .idle, out := s.out ++ [.tmrCancel, .done .ok none] }) ∧
    (b = s.ns →
      exec (if b = 0 then .rr0 else .rr1) s =
        .next { s with recState := .idle, recCtrl := cRR b, cntRxFrames := bump s.params s.cntRxFrames }) ∧
    exec (.rrS b) s = exec (if b = 0 then .rr0 else .rr1) s

/-- Derived from R94, R222 with R104 (log entry 6): a whole REJ frame of either bit in the reply wait of SEND ends the
attempt; the same frame is written again, or at the bound the SEND fails. -/
def Obligations.RejFramesRetransmit : Prop :=
  ∀ (s : State) (b : Bit), Coherent s → s.rxq = [] → s.recState ≠ .bcc → s.phase = .sendWaitAck →
    s.timerRunning = true → s.retryCnt < s.ntries →
    (s.retryCnt + 1 < s.ntries →
      exec (if b = 0 then .rej0 else .rej1) s =
        .next { s with
          recState := .idle, recCtrl := cRej b, cntRxFrames := bump s.params s.cntRxFrames
          retryCnt := s.retryCnt + 1, timedOut := false, cntTxFrames := bump s.params s.cntTxFrames
          cntRetx := bump s.params s.cntRetx
          out := s.out ++ [.tmrCancel, .tx s.txf, .tmrStart s.timeout] }) ∧
    (s.retryCnt + 1 = s.ntries →
      exec (if b = 0 then .rej0 else .rej1) s =
        .next { s with
          recState := .idle, recCtrl := cRej b, cntRxFrames := bump s.params s.cntRxFrames
          retryCnt := s.retryCnt + 1, timerRunning := false, sess := .failed, phase := .idle
          err := .maxRetransmissionsExceeded
          out := s.out ++ [.tmrCancel, .done .maxRetransmissionsExceeded none] }) ∧
    exec (.rejS b) s = exec (if b = 0 then .rej0 else .rej1) s

/-- Derived from R95, R231, R232 with R104 (log entry 6): a whole I frame within MAX_PAYLOAD, whatever its payload, is
delivered and acknowledged when new, and acknowledged without delivery when a duplicate. -/
def Obligations.InformationFramesAreReceived : Prop :=
  ∀ (s : State) (b : Bit) (P : Bytes), s.rxq = [] → s.phase = .recvCapture →
    s.capState = .idle ∨ (s.capState = .flag ∧ s.capOvf = false) →
    (∀ m, s.params.maxPayload = some m → P.length ≤ m) →
    (b ≠ s.lrfn →
      exec (if b = 0 then .i0 P else .i1 P) s =
        .next { s with
          capState := .idle, capBuf := [], capOvf := false, cntRxFrames := bump s.params s.cntRxFrames
          cntTxFrames := bump s.params s.cntTxFrames, lrfn := b, nr := ~~~ s.nr, phase := .idle
          out := s.out ++ [.tx (encSup 0x01 (cRR (~~~ s.nr))), .done .ok (some P)] }) ∧
    (b = s.lrfn →
      exec (if b = 0 then .i0 P else .i1 P) s =
        .next { s with
          capState := .idle, capBuf := [], capOvf := false, cntRxFrames := bump s.params s.cntRxFrames
          cntTxFrames := bump s.params s.cntTxFrames
          out := s.out ++ [.ev .duplicateFrame, .tx (encSup 0x01 (cRR s.nr))] }) ∧
    exec (.iS b P) s = exec (if b = 0 then .i0 P else .i1 P) s

/-- Derived from R88 (the pair rows are arrivals, log entry 7): inside a body the capture collects the pair raw, and
destuffing reads it as the byte it stands for. -/
def Obligations.StuffingPairsStandForTheirByte : Prop :=
  (∀ s : State, s.rxq = [] → s.phase = .recvCapture → s.capState = .body →
    (∀ m, s.params.maxPayload = some m → s.capBuf.length + 2 ≤ 2 * m + 5) →
    exec .escFlag s = .next { s with capBuf := s.capBuf ++ [0x7D, 0x5E] } ∧
    exec .escEsc s = .next { s with capBuf := s.capBuf ++ [0x7D, 0x5D] }) ∧
  (∀ S D : Bytes, destuff S = some D →
    destuff (S ++ [0x7D, 0x5E]) = some (D ++ [0x7E]) ∧ destuff (S ++ [0x7D, 0x5D]) = some (D ++ [0x7D]))

/-- Derived from R234(c): the same information frame delivered twice, over two RECEIVEs, is handed over once, and two
identical RR frames are written. -/
def Obligations.SameFrameIsDeliveredOnce : Prop :=
  ∀ (s : State) (b : Bit) (P : Bytes), s.rxq = [] → s.phase = .recvCapture → s.capState = .idle →
    s.sess = .opened → s.role = .rx → b ≠ s.lrfn → (∀ m, s.params.maxPayload = some m → P.length ≤ m) →
    ∃ t, execAll [.iS b P, .receiveCmd, .iS b P] s = .next t ∧ t.phase = .recvCapture ∧
      t.nr = ~~~ s.nr ∧ t.lrfn = b ∧
      t.out = s.out ++
        [.tx (encSup 0x01 (cRR (~~~ s.nr))), .done .ok (some P),
         .ev .duplicateFrame, .tx (encSup 0x01 (cRR (~~~ s.nr)))]

/-- Derived from R220, R232 and R221: one exchange between two endpoints over a line that loses nothing. The frame a
SEND latches, read byte by byte by a Receiver that expects its sequence number, delivers the payload; the RR it
writes, read byte by byte by the Transmitter, completes the SEND with the sequence number toggled. -/
def Obligations.SendIsDeliveredAndAcknowledged : Prop :=
  ∀ (T R : State) (P : Bytes),
    T.phase = .idle → T.sess = .opened → T.role = .tx → T.rxq = [] → 0 < T.ntries →
    R.phase = .recvCapture → R.capState = .idle → R.rxq = [] → R.nr = T.ns → R.lrfn = ~~~ R.nr →
    (∀ m, T.params.maxPayload = some m → P.length ≤ m) → (∀ m, R.params.maxPayload = some m → P.length ≤ m) →
    ∃ T' R' T'' F,
      exec (.sendCmd P) T = .next T' ∧
      rxBytes T'.txf R = .next R' ∧ R'.phase = .idle ∧ R'.nr = ~~~ R.nr ∧
      R'.out = R.out ++ [.tx F, .done .ok (some P)] ∧
      rxBytes F T' = .next T'' ∧ T''.phase = .idle ∧ T''.ns = ~~~ T.ns ∧ T''.ns = R'.nr ∧
      T''.out = T.out ++ [.tx T'.txf, .tmrStart T.timeout, .tmrCancel, .done .ok none]

/-! ## Reset -/

/-- R47, R290: RESET gives every register its reset value and emits nothing, in every state; the reset state has them.
-/
def Obligations.ResetRestoresEveryRegister : Prop :=
  (∀ s : State,
    exec .resetInput s =
      .next { s with
        sess := .closed, phase := .idle, role := .tx, ntries := 0, timeout := 0, ns := 0, nr := 0, lrfn := 1
        err := .ok, retryCnt := 0, timerRunning := false, timedOut := false, txf := [], recState := .idle
        recCtrl := 0x00, capState := .idle, capBuf := [], capOvf := false, cntTxFrames := 0, cntRxFrames := 0
        cntRetx := 0 }) ∧
  exec .resetInput State.reset = .next State.reset

/-! ## The whole machine -/

/-- The reset state is good. Derived from R46 and R47. -/
def Obligations.ResetStateIsGood : Prop := Good State.reset

/-- Headline, derived from R46 (which the spec derives): every step from a good state leads to a good state, for every
pending input and every value of the parameters. -/
def Obligations.StepKeepsGoodStates : Prop :=
  ∀ s t : State, Good s → step s = .next t → Good t

/-- Headline, derived from 93 section 2 and R206: in a good state every input has a step, but for a command outside
P_IDLE: no byte, empty read, expiry or reset ever stops the block. -/
def Obligations.EveryEnabledInputHasAStep : Prop :=
  ∀ (s : State) (i : Instr), Good s → isInput i = true → (isCommand i = true → s.phase = .idle) →
    ∃ t, exec i s = .next t

/-- Derived from R24: the transitions of `sess`. An OPEN with `ntries = 0` goes through OPENING to FAILED within its
one step. -/
def Obligations.SessionMovesOnlyAsListed : Prop :=
  ∀ (s t : State) (i : Instr), Inv s → isInput i = true → exec i s = .next t →
    t.sess = s.sess ∨
    (s.sess = .closed ∧ t.sess = .opening) ∨ (s.sess = .opening ∧ t.sess = .opened) ∨
    (s.sess = .opened ∧ t.sess = .closing) ∨ (s.sess = .closing ∧ t.sess = .closed) ∨
    ((s.sess = .opening ∨ s.sess = .opened ∨ s.sess = .closing) ∧ t.sess = .failed) ∨
    (i = .resetInput ∧ t.sess = .closed) ∨
    (s.sess = .closed ∧ t.sess = .failed ∧ ∃ d, i = .openCmd .tx 0 d)

/-- Derived from R265, R266: FAILED is left only by RESET. In FAILED, any other input that has a step leaves every
register as it was. -/
def Obligations.FailedIsLeftOnlyByReset : Prop :=
  ∀ (s t : State) (i : Instr), Inv s → s.sess = .failed → isInput i = true → i ≠ .resetInput →
    exec i s = .next t → t = { s with rxq := t.rxq, out := t.out }

/-- Headline, derived from R43 ("No rule's condition reads any counter"): two states that differ in the statistics
counters only take the same steps, for every instruction, to states that again differ in the counters only. -/
def Obligations.CountersAreNeverRead : Prop :=
  ∀ (s t : State) (i : Instr), SameButCounters s t →
    (∀ u, exec i s = .next u → ∃ v, exec i t = .next v ∧ SameButCounters u v) ∧
    (∀ e, exec i s = .fault e → exec i t = .fault e)

/-- Derived from R261: every EV is emitted in P_RECV_CAPTURE by the Receiver and immediately followed, in the same
step, by a TX of a supervision frame; outputs are only ever appended (R69). -/
def Obligations.EveryEventIsAnswered : Prop :=
  ∀ (s t : State) (i : Instr), Coherent s → isInput i = true → exec i s = .next t →
    ∃ os, t.out = s.out ++ os ∧
      ((∃ k, Output.ev k ∈ os) → s.phase = .recvCapture ∧ s.role = .rx) ∧
      (∀ A k C, os = A ++ Output.ev k :: C → ∃ c D, C = .tx (encSup 0x01 c) :: D)

/-- Derived from R251 (`Fail` takes a fatal status only, log entry 28): no row of the table, well formed, ever
produces DONE(DeviceError), and `err` never comes to hold it. -/
def Obligations.DeviceErrorIsNeverProduced : Prop :=
  ∀ (s t : State) (i : Instr), i.wf = true → s.err ≠ .deviceError → exec i s = .next t →
    t.err ≠ .deviceError ∧ ∃ os, t.out = s.out ++ os ∧ ∀ P, Output.done .deviceError P ∉ os

/-- Derived from R26, R27 and R234(b): but for OPEN and RESET, `ns` moves only by a toggle that completes a SEND with
DONE(OK), and `nr` and `lrfn` only by the delivery of a new frame. -/
def Obligations.SequenceNumbersMoveOnlyOnSuccess : Prop :=
  ∀ (s t : State) (i : Instr), isInput i = true → i ≠ .resetInput → (∀ r n d, i ≠ .openCmd r n d) →
    exec i s = .next t →
    (t.ns ≠ s.ns →
      s.phase = .sendWaitAck ∧ t.phase = .idle ∧ t.ns = ~~~ s.ns ∧ t.out.getLast? = some (.done .ok none)) ∧
    (t.nr ≠ s.nr ∨ t.lrfn ≠ s.lrfn →
      s.phase = .recvCapture ∧ t.phase = .idle ∧ t.nr = ~~~ s.nr ∧
        ∃ P, t.out.getLast? = some (.done .ok (some P)))

/-- Derived from R21 to R23, R295 and R16: `role`, `ntries` and `timeout` are written by an accepted OPEN and by RESET
only, the parameters by nothing, for every instruction. -/
def Obligations.ConfigurationIsFixedAtOpen : Prop :=
  ∀ (s t : State) (i : Instr), exec i s = .next t →
    t.params = s.params ∧
    (t.role ≠ s.role ∨ t.ntries ≠ s.ntries ∨ t.timeout ≠ s.timeout →
      i = .resetInput ∨ ∃ r n d, i = .openCmd r n d ∧ s.phase = .idle ∧ s.sess = .closed)

/-- Derived from R73: the frame of a SEND is latched. While the reply is awaited no input but RESET changes `txf`, and
every frame written is `txf`. -/
def Obligations.SendFrameIsLatched : Prop :=
  ∀ (s t : State) (i : Instr), s.phase = .sendWaitAck → isInput i = true → i ≠ .resetInput → exec i s = .next t →
    t.txf = s.txf ∧ ∃ os, t.out = s.out ++ os ∧ ∀ F, Output.tx F ∈ os → F = s.txf

/-! ## Records and steps -/

/-- Headline: decoding an encoded well-formed instruction gives it back, whatever its operands (log entry 2 for the
selectors of rows without a code of the spec's own). -/
def Obligations.DecodeOfEncodeIsTheInstruction : Prop :=
  ∀ i : Instr, i.wf = true → decode (encode i) = .ok i

/-- Each record has one meaning: what decodes is the encoding of what it decodes to (log entry 2). -/
def Obligations.EncodeOfDecodeIsTheRecord : Prop :=
  ∀ (r : Record) (i : Instr), decode r = .ok i → encode i = r

/-- Derived from R97, R101, R250, R261: written-out words decode to the rows they stand for: wire bytes of frames
(R97), a record of OPEN (its form is the model's, log entry 2), headers and command codes as the opcode table numbers
them (that a table word without operands has the empty payload is log entry 17). The codes on `done_status` and
`ev_kind` are those of R250 and R261, and `err` reads as the code of its status. -/
def Obligations.SpecWordsDecodeToTheirRows : Prop :=
  decode [0x7E, 0x01, 0x85, 0x84, 0x7E] = .ok .rr1 ∧
  decode [0x7E, 0x03, 0x00, 0x03, 0x41, 0x42, 0x43, 0x40, 0x7E] = .ok (.i0 [0x41, 0x42, 0x43]) ∧
  decode [0x7E, 0x03, 0x80, 0x83, 0x00, 0x7E] = .error .unknownFrame ∧
  decode [1, 1, 3, 2] = .ok (.openCmd .rx 3 2) ∧
  decodeTableWord 24 0x030B08 = some .discTx ∧ decodeTableWord 24 0x034043 = some (.i1 []) ∧
  decodeTableWord 8 4 = some .closeCmd ∧
  (∀ P, doneStatus (.done .ok P) = some 0 ∧ doneStatus (.done .deviceError P) = some 1 ∧
    doneStatus (.done .connectionTimeout P) = some 2 ∧ doneStatus (.done .disconnectTimeout P) = some 3 ∧
    doneStatus (.done .maxRetransmissionsExceeded P) = some 4 ∧ doneStatus (.done .illegalCommand P) = some 5 ∧
    doneStatus (.done .payloadTooLong P) = some 6) ∧
  (∀ (s : State) (P : Option Bytes), doneStatus (.done s.err P) = some (errCode s)) ∧
  evKind (.ev .frameRejected) = some 1 ∧ evKind (.ev .checksumMismatch) = some 2 ∧
  evKind (.ev .malformedEscape) = some 3 ∧ evKind (.ev .duplicateFrame) = some 4

/-- A step runs the decoded instruction: with a record that decodes, it is exec of the instruction with the record taken
away; a table word placed by `withFetchWord` is that record (log entries 1, 16). -/
def Obligations.StepRunsTheDecodedInstruction : Prop :=
  (∀ (s : State) (r : Record) (rest : List Record) (i : Instr), s.inputs = r :: rest → decode r = .ok i →
    step s = exec i { s with inputs := rest }) ∧
  (∀ (s : State) (nbits w : Nat) (i : Instr), decodeTableWord nbits w = some i →
    step (s.withFetchWord nbits w) = exec i s) ∧
  (∀ (s : State) (r : Record) (rest : List Record) (e : DecodeError), s.inputs = r :: rest → decode r = .error e →
    step s = .refused (.undecodable e))

/-- Derived from R9, R14, R63 and R74 (log entry 1): with no record presented, the block waits in P_IDLE; elsewhere it
takes the oldest byte of the channel, or, when the channel holds none, an empty read. -/
def Obligations.StepWithoutARecordReadsTheChannel : Prop :=
  ∀ s : State, s.inputs = [] →
    (s.phase = .idle → step s = .next s) ∧
    (s.phase ≠ .idle → s.rxq = [] → step s = exec .tick s) ∧
    (∀ b q, s.phase ≠ .idle → s.rxq = b :: q →
      step s = andThen (exec (.rxbyteSup b) { s with rxq := [] }) (fun t => .next { t with rxq := q }))
end

