-- ==== Sys2Proof/Laws/State.lean ====
section
/-! SUPPORT. One lemma per field per update of the state, each true by `rfl`: no later proof unfolds a record update. -/

namespace Sys2Proof.Machine

section
variable (o : Output) (s : State)
@[simp] theorem emit_role : (emit o s).role = s.role := rfl
@[simp] theorem emit_ntries : (emit o s).ntries = s.ntries := rfl
@[simp] theorem emit_timeout : (emit o s).timeout = s.timeout := rfl
@[simp] theorem emit_sess : (emit o s).sess = s.sess := rfl
@[simp] theorem emit_phase : (emit o s).phase = s.phase := rfl
@[simp] theorem emit_ns : (emit o s).ns = s.ns := rfl
@[simp] theorem emit_nr : (emit o s).nr = s.nr := rfl
@[simp] theorem emit_lrfn : (emit o s).lrfn = s.lrfn := rfl
@[simp] theorem emit_err : (emit o s).err = s.err := rfl
@[simp] theorem emit_retryCnt : (emit o s).retryCnt = s.retryCnt := rfl
@[simp] theorem emit_timerRunning : (emit o s).timerRunning = s.timerRunning := rfl
@[simp] theorem emit_timedOut : (emit o s).timedOut = s.timedOut := rfl
@[simp] theorem emit_txf : (emit o s).txf = s.txf := rfl
@[simp] theorem emit_recState : (emit o s).recState = s.recState := rfl
@[simp] theorem emit_recCtrl : (emit o s).recCtrl = s.recCtrl := rfl
@[simp] theorem emit_capState : (emit o s).capState = s.capState := rfl
@[simp] theorem emit_capBuf : (emit o s).capBuf = s.capBuf := rfl
@[simp] theorem emit_capOvf : (emit o s).capOvf = s.capOvf := rfl
@[simp] theorem emit_cntTxFrames : (emit o s).cntTxFrames = s.cntTxFrames := rfl
@[simp] theorem emit_cntRxFrames : (emit o s).cntRxFrames = s.cntRxFrames := rfl
@[simp] theorem emit_cntRetx : (emit o s).cntRetx = s.cntRetx := rfl
@[simp] theorem emit_params : (emit o s).params = s.params := rfl
@[simp] theorem emit_rxq : (emit o s).rxq = s.rxq := rfl
@[simp] theorem emit_inputs : (emit o s).inputs = s.inputs := rfl
@[simp] theorem emit_out : (emit o s).out = s.out ++ [o] := rfl
@[simp] theorem emit_ret : (emit o s).ret = s.ret := rfl
end

section
variable (F : Bytes) (s : State)
@[simp] theorem writeFrame_role : (writeFrame F s).role = s.role := rfl
@[simp] theorem writeFrame_ntries : (writeFrame F s).ntries = s.ntries := rfl
@[simp] theorem writeFrame_timeout : (writeFrame F s).timeout = s.timeout := rfl
@[simp] theorem writeFrame_sess : (writeFrame F s).sess = s.sess := rfl
@[simp] theorem writeFrame_phase : (writeFrame F s).phase = s.phase := rfl
@[simp] theorem writeFrame_ns : (writeFrame F s).ns = s.ns := rfl
@[simp] theorem writeFrame_nr : (writeFrame F s).nr = s.nr := rfl
@[simp] theorem writeFrame_lrfn : (writeFrame F s).lrfn = s.lrfn := rfl
@[simp] theorem writeFrame_err : (writeFrame F s).err = s.err := rfl
@[simp] theorem writeFrame_retryCnt : (writeFrame F s).retryCnt = s.retryCnt := rfl
@[simp] theorem writeFrame_timerRunning : (writeFrame F s).timerRunning = s.timerRunning := rfl
@[simp] theorem writeFrame_timedOut : (writeFrame F s).timedOut = s.timedOut := rfl
@[simp] theorem writeFrame_txf : (writeFrame F s).txf = s.txf := rfl
@[simp] theorem writeFrame_recState : (writeFrame F s).recState = s.recState := rfl
@[simp] theorem writeFrame_recCtrl : (writeFrame F s).recCtrl = s.recCtrl := rfl
@[simp] theorem writeFrame_capState : (writeFrame F s).capState = s.capState := rfl
@[simp] theorem writeFrame_capBuf : (writeFrame F s).capBuf = s.capBuf := rfl
@[simp] theorem writeFrame_capOvf : (writeFrame F s).capOvf = s.capOvf := rfl
@[simp] theorem writeFrame_cntTxFrames : (writeFrame F s).cntTxFrames = bump s.params s.cntTxFrames := rfl
@[simp] theorem writeFrame_cntRxFrames : (writeFrame F s).cntRxFrames = s.cntRxFrames := rfl
@[simp] theorem writeFrame_cntRetx : (writeFrame F s).cntRetx = s.cntRetx := rfl
@[simp] theorem writeFrame_params : (writeFrame F s).params = s.params := rfl
@[simp] theorem writeFrame_rxq : (writeFrame F s).rxq = s.rxq := rfl
@[simp] theorem writeFrame_inputs : (writeFrame F s).inputs = s.inputs := rfl
@[simp] theorem writeFrame_out : (writeFrame F s).out = s.out ++ [.tx F] := rfl
@[simp] theorem writeFrame_ret : (writeFrame F s).ret = s.ret := rfl
end

section
variable (s : State)
@[simp] theorem countRx_role : (countRx s).role = s.role := rfl
@[simp] theorem countRx_ntries : (countRx s).ntries = s.ntries := rfl
@[simp] theorem countRx_timeout : (countRx s).timeout = s.timeout := rfl
@[simp] theorem countRx_sess : (countRx s).sess = s.sess := rfl
@[simp] theorem countRx_phase : (countRx s).phase = s.phase := rfl
@[simp] theorem countRx_ns : (countRx s).ns = s.ns := rfl
@[simp] theorem countRx_nr : (countRx s).nr = s.nr := rfl
@[simp] theorem countRx_lrfn : (countRx s).lrfn = s.lrfn := rfl
@[simp] theorem countRx_err : (countRx s).err = s.err := rfl
@[simp] theorem countRx_retryCnt : (countRx s).retryCnt = s.retryCnt := rfl
@[simp] theorem countRx_timerRunning : (countRx s).timerRunning = s.timerRunning := rfl
@[simp] theorem countRx_timedOut : (countRx s).timedOut = s.timedOut := rfl
@[simp] theorem countRx_txf : (countRx s).txf = s.txf := rfl
@[simp] theorem countRx_recState : (countRx s).recState = s.recState := rfl
@[simp] theorem countRx_recCtrl : (countRx s).recCtrl = s.recCtrl := rfl
@[simp] theorem countRx_capState : (countRx s).capState = s.capState := rfl
@[simp] theorem countRx_capBuf : (countRx s).capBuf = s.capBuf := rfl
@[simp] theorem countRx_capOvf : (countRx s).capOvf = s.capOvf := rfl
@[simp] theorem countRx_cntTxFrames : (countRx s).cntTxFrames = s.cntTxFrames := rfl
@[simp] theorem countRx_cntRxFrames : (countRx s).cntRxFrames = bump s.params s.cntRxFrames := rfl
@[simp] theorem countRx_cntRetx : (countRx s).cntRetx = s.cntRetx := rfl
@[simp] theorem countRx_params : (countRx s).params = s.params := rfl
@[simp] theorem countRx_rxq : (countRx s).rxq = s.rxq := rfl
@[simp] theorem countRx_inputs : (countRx s).inputs = s.inputs := rfl
@[simp] theorem countRx_out : (countRx s).out = s.out := rfl
@[simp] theorem countRx_ret : (countRx s).ret = s.ret := rfl
end

section
variable (o : RecOut) (s : State)
@[simp] theorem recWrite_role : (recWrite o s).role = s.role := rfl
@[simp] theorem recWrite_ntries : (recWrite o s).ntries = s.ntries := rfl
@[simp] theorem recWrite_timeout : (recWrite o s).timeout = s.timeout := rfl
@[simp] theorem recWrite_sess : (recWrite o s).sess = s.sess := rfl
@[simp] theorem recWrite_phase : (recWrite o s).phase = s.phase := rfl
@[simp] theorem recWrite_ns : (recWrite o s).ns = s.ns := rfl
@[simp] theorem recWrite_nr : (recWrite o s).nr = s.nr := rfl
@[simp] theorem recWrite_lrfn : (recWrite o s).lrfn = s.lrfn := rfl
@[simp] theorem recWrite_err : (recWrite o s).err = s.err := rfl
@[simp] theorem recWrite_retryCnt : (recWrite o s).retryCnt = s.retryCnt := rfl
@[simp] theorem recWrite_timerRunning : (recWrite o s).timerRunning = s.timerRunning := rfl
@[simp] theorem recWrite_timedOut : (recWrite o s).timedOut = s.timedOut := rfl
@[simp] theorem recWrite_txf : (recWrite o s).txf = s.txf := rfl
@[simp] theorem recWrite_recState : (recWrite o s).recState = o.state := rfl
@[simp] theorem recWrite_recCtrl : (recWrite o s).recCtrl = o.ctrl := rfl
@[simp] theorem recWrite_capState : (recWrite o s).capState = s.capState := rfl
@[simp] theorem recWrite_capBuf : (recWrite o s).capBuf = s.capBuf := rfl
@[simp] theorem recWrite_capOvf : (recWrite o s).capOvf = s.capOvf := rfl
@[simp] theorem recWrite_cntTxFrames : (recWrite o s).cntTxFrames = s.cntTxFrames := rfl
@[simp] theorem recWrite_cntRxFrames : (recWrite o s).cntRxFrames = s.cntRxFrames := rfl
@[simp] theorem recWrite_cntRetx : (recWrite o s).cntRetx = s.cntRetx := rfl
@[simp] theorem recWrite_params : (recWrite o s).params = s.params := rfl
@[simp] theorem recWrite_rxq : (recWrite o s).rxq = s.rxq := rfl
@[simp] theorem recWrite_inputs : (recWrite o s).inputs = s.inputs := rfl
@[simp] theorem recWrite_out : (recWrite o s).out = s.out := rfl
@[simp] theorem recWrite_ret : (recWrite o s).ret = s.ret := rfl
end

section
variable (o : CapOut) (s : State)
@[simp] theorem capWrite_role : (capWrite o s).role = s.role := rfl
@[simp] theorem capWrite_ntries : (capWrite o s).ntries = s.ntries := rfl
@[simp] theorem capWrite_timeout : (capWrite o s).timeout = s.timeout := rfl
@[simp] theorem capWrite_sess : (capWrite o s).sess = s.sess := rfl
@[simp] theorem capWrite_phase : (capWrite o s).phase = s.phase := rfl
@[simp] theorem capWrite_ns : (capWrite o s).ns = s.ns := rfl
@[simp] theorem capWrite_nr : (capWrite o s).nr = s.nr := rfl
@[simp] theorem capWrite_lrfn : (capWrite o s).lrfn = s.lrfn := rfl
@[simp] theorem capWrite_err : (capWrite o s).err = s.err := rfl
@[simp] theorem capWrite_retryCnt : (capWrite o s).retryCnt = s.retryCnt := rfl
@[simp] theorem capWrite_timerRunning : (capWrite o s).timerRunning = s.timerRunning := rfl
@[simp] theorem capWrite_timedOut : (capWrite o s).timedOut = s.timedOut := rfl
@[simp] theorem capWrite_txf : (capWrite o s).txf = s.txf := rfl
@[simp] theorem capWrite_recState : (capWrite o s).recState = s.recState := rfl
@[simp] theorem capWrite_recCtrl : (capWrite o s).recCtrl = s.recCtrl := rfl
@[simp] theorem capWrite_capState : (capWrite o s).capState = o.state := rfl
@[simp] theorem capWrite_capBuf : (capWrite o s).capBuf = o.buf := rfl
@[simp] theorem capWrite_capOvf : (capWrite o s).capOvf = o.ovf := rfl
@[simp] theorem capWrite_cntTxFrames : (capWrite o s).cntTxFrames = s.cntTxFrames := rfl
@[simp] theorem capWrite_cntRxFrames : (capWrite o s).cntRxFrames = s.cntRxFrames := rfl
@[simp] theorem capWrite_cntRetx : (capWrite o s).cntRetx = s.cntRetx := rfl
@[simp] theorem capWrite_params : (capWrite o s).params = s.params := rfl
@[simp] theorem capWrite_rxq : (capWrite o s).rxq = s.rxq := rfl
@[simp] theorem capWrite_inputs : (capWrite o s).inputs = s.inputs := rfl
@[simp] theorem capWrite_out : (capWrite o s).out = s.out := rfl
@[simp] theorem capWrite_ret : (capWrite o s).ret = s.ret := rfl
end

section
variable (s : State)
@[simp] theorem dropRecord_role : (dropRecord s).role = s.role := rfl
@[simp] theorem dropRecord_ntries : (dropRecord s).ntries = s.ntries := rfl
@[simp] theorem dropRecord_timeout : (dropRecord s).timeout = s.timeout := rfl
@[simp] theorem dropRecord_sess : (dropRecord s).sess = s.sess := rfl
@[simp] theorem dropRecord_phase : (dropRecord s).phase = s.phase := rfl
@[simp] theorem dropRecord_ns : (dropRecord s).ns = s.ns := rfl
@[simp] theorem dropRecord_nr : (dropRecord s).nr = s.nr := rfl
@[simp] theorem dropRecord_lrfn : (dropRecord s).lrfn = s.lrfn := rfl
@[simp] theorem dropRecord_err : (dropRecord s).err = s.err := rfl
@[simp] theorem dropRecord_retryCnt : (dropRecord s).retryCnt = s.retryCnt := rfl
@[simp] theorem dropRecord_timerRunning : (dropRecord s).timerRunning = s.timerRunning := rfl
@[simp] theorem dropRecord_timedOut : (dropRecord s).timedOut = s.timedOut := rfl
@[simp] theorem dropRecord_txf : (dropRecord s).txf = s.txf := rfl
@[simp] theorem dropRecord_recState : (dropRecord s).recState = s.recState := rfl
@[simp] theorem dropRecord_recCtrl : (dropRecord s).recCtrl = s.recCtrl := rfl
@[simp] theorem dropRecord_capState : (dropRecord s).capState = s.capState := rfl
@[simp] theorem dropRecord_capBuf : (dropRecord s).capBuf = s.capBuf := rfl
@[simp] theorem dropRecord_capOvf : (dropRecord s).capOvf = s.capOvf := rfl
@[simp] theorem dropRecord_cntTxFrames : (dropRecord s).cntTxFrames = s.cntTxFrames := rfl
@[simp] theorem dropRecord_cntRxFrames : (dropRecord s).cntRxFrames = s.cntRxFrames := rfl
@[simp] theorem dropRecord_cntRetx : (dropRecord s).cntRetx = s.cntRetx := rfl
@[simp] theorem dropRecord_params : (dropRecord s).params = s.params := rfl
@[simp] theorem dropRecord_rxq : (dropRecord s).rxq = s.rxq := rfl
@[simp] theorem dropRecord_inputs : (dropRecord s).inputs = s.inputs.tail := rfl
@[simp] theorem dropRecord_out : (dropRecord s).out = s.out := rfl
@[simp] theorem dropRecord_ret : (dropRecord s).ret = s.ret := rfl
end

section
variable (s : State)
@[simp] theorem resetRegisters_role : (resetRegisters s).role = .tx := rfl
@[simp] theorem resetRegisters_ntries : (resetRegisters s).ntries = 0 := rfl
@[simp] theorem resetRegisters_timeout : (resetRegisters s).timeout = 0 := rfl
@[simp] theorem resetRegisters_sess : (resetRegisters s).sess = .closed := rfl
@[simp] theorem resetRegisters_phase : (resetRegisters s).phase = .idle := rfl
@[simp] theorem resetRegisters_ns : (resetRegisters s).ns = 0 := rfl
@[simp] theorem resetRegisters_nr : (resetRegisters s).nr = 0 := rfl
@[simp] theorem resetRegisters_lrfn : (resetRegisters s).lrfn = 1 := rfl
@[simp] theorem resetRegisters_err : (resetRegisters s).err = .ok := rfl
@[simp] theorem resetRegisters_retryCnt : (resetRegisters s).retryCnt = 0 := rfl
@[simp] theorem resetRegisters_timerRunning : (resetRegisters s).timerRunning = false := rfl
@[simp] theorem resetRegisters_timedOut : (resetRegisters s).timedOut = false := rfl
@[simp] theorem resetRegisters_txf : (resetRegisters s).txf = [] := rfl
@[simp] theorem resetRegisters_recState : (resetRegisters s).recState = .idle := rfl
@[simp] theorem resetRegisters_recCtrl : (resetRegisters s).recCtrl = 0x00 := rfl
@[simp] theorem resetRegisters_capState : (resetRegisters s).capState = .idle := rfl
@[simp] theorem resetRegisters_capBuf : (resetRegisters s).capBuf = [] := rfl
@[simp] theorem resetRegisters_capOvf : (resetRegisters s).capOvf = false := rfl
@[simp] theorem resetRegisters_cntTxFrames : (resetRegisters s).cntTxFrames = 0 := rfl
@[simp] theorem resetRegisters_cntRxFrames : (resetRegisters s).cntRxFrames = 0 := rfl
@[simp] theorem resetRegisters_cntRetx : (resetRegisters s).cntRetx = 0 := rfl
@[simp] theorem resetRegisters_params : (resetRegisters s).params = s.params := rfl
@[simp] theorem resetRegisters_rxq : (resetRegisters s).rxq = s.rxq := rfl
@[simp] theorem resetRegisters_inputs : (resetRegisters s).inputs = s.inputs := rfl
@[simp] theorem resetRegisters_out : (resetRegisters s).out = s.out := rfl
@[simp] theorem resetRegisters_ret : (resetRegisters s).ret = s.ret := rfl
end

end Sys2Proof.Machine
end

