-- ==== Sys2Proof/Laws/Ops.lean ====
section
/-! SUPPORT. One lemma per shared operation that says once everything it can do; provers cite these instead of
unfolding the operation. -/

namespace Sys2Proof.Machine

/-! ## Sequencing -/

@[simp] theorem andThen_next (s : State) (f : State → Res) : andThen (.next s) f = f s := rfl
@[simp] theorem andThen_fault (e : Fault) (f : State → Res) : andThen (.fault e) f = .fault e := rfl
@[simp] theorem andThen_refused (e : Refusal) (f : State → Res) : andThen (.refused e) f = .refused e := rfl

/-- A sequence that answers a next state went through one. -/
theorem andThen_eq_next {r : Res} {f : State → Res} {t : State} (h : andThen r f = .next t) :
    ∃ s, r = .next s ∧ f s = .next t := by
  cases r with
  | next s => exact ⟨s, rfl, h⟩
  | fault e => cases h
  | refused e => cases h

/-! ## Timer, fatal end, attempts -/

/-- `CancelTimer` writes `timer_running` and emits at most a `TMR_CANCEL` (R175). -/
theorem cancelTimer_eq (s : State) :
    cancelTimer s = { s with timerRunning := false, out := s.out ++ cancelOut s } := by
  unfold cancelTimer cancelOut
  cases s with
  | mk role ntries timeout sess phase ns nr lrfn err retryCnt timerRunning =>
    cases timerRunning <;> simp [emit]

/-- `Fail` writes `sess`, `phase`, `err` and `timer_running`, and emits `DONE(e)` (R176). -/
theorem fail_eq (e : Status) (s : State) : fail e s = afterFail e s := by
  simp [fail, afterFail, cancelTimer_eq, emit]

/-- A write of a timed exchange (R172): the frame, then the timer. -/
theorem startAttempt_eq (s : State) : startAttempt s = afterWrite s := by
  unfold startAttempt countRetx afterWrite retxAfter
  split <;> simp [emit, writeFrame]

/-- The three branches of `LoopCheck` (R172). -/
theorem loopCheckWith_cases (e : Status) (s : State) :
    (s.ntries ≤ s.retryCnt ∧ loopCheckWith e s = fail e s) ∨
    (s.retryCnt < s.ntries ∧ s.timerRunning = true ∧ loopCheckWith e s = s) ∨
    (s.retryCnt < s.ntries ∧ s.timerRunning = false ∧ loopCheckWith e s = startAttempt s) := by
  unfold loopCheckWith
  by_cases h : s.ntries ≤ s.retryCnt
  · exact .inl ⟨h, by simp [h]⟩
  · have h' : s.retryCnt < s.ntries := by omega
    cases ht : s.timerRunning
    · exact .inr (.inr ⟨h', rfl, by simp [h]⟩)
    · exact .inr (.inl ⟨h', rfl, by simp [h]⟩)

/-- Outside `TIMED` there is no bound test. -/
theorem loopCheckIfTimed_untimed {s : State} (h : timeoutError s.phase = none) : loopCheckIfTimed s = s := by
  simp [loopCheckIfTimed, h]

/-- Inside `TIMED` it is `LoopCheck`. -/
theorem loopCheckIfTimed_timed {s : State} {e : Status} (h : timeoutError s.phase = some e) :
    loopCheckIfTimed s = loopCheckWith e s := by
  simp [loopCheckIfTimed, h]

/-- What the bound test leaves alone: everything but the registers of `Fail` and of a write. -/
theorem loopCheckIfTimed_frame (s : State) :
    ∃ sess phase err timerRunning timedOut cntTx cntRetx out,
      loopCheckIfTimed s =
        { s with
          sess := sess, phase := phase, err := err, timerRunning := timerRunning, timedOut := timedOut
          cntTxFrames := cntTx, cntRetx := cntRetx, out := out } := by
  unfold loopCheckIfTimed
  split
  · rename_i e _
    rcases loopCheckWith_cases e s with ⟨_, h⟩ | ⟨_, _, h⟩ | ⟨_, _, h⟩ <;> rw [h]
    · exact ⟨_, _, _, _, _, _, _, _, fail_eq e s⟩
    · exact ⟨_, _, _, _, _, _, _, _, rfl⟩
    · exact ⟨_, _, _, _, _, _, _, _, startAttempt_eq s⟩
  · exact ⟨_, _, _, _, _, _, _, _, rfl⟩

/-- With `ntries = 0` a timed exchange fails at once and writes nothing (R182). -/
theorem startTimed_zero (p : TimedPhase) (F : Bytes) (s : State) (h : s.ntries = 0) :
    ∃ e, timeoutError (timedPhase p) = some e ∧ startTimed p F s = fail e (exchangeStart p F s) := by
  cases p <;> exact ⟨_, rfl, by simp [startTimed, freshRecognizer, loopCheckIfTimed, timedPhase, timeoutError,
    loopCheckWith, exchangeStart, h]⟩

/-- With `ntries > 0` a timed exchange writes its frame and starts the timer (R171, R172). -/
theorem startTimed_pos (p : TimedPhase) (F : Bytes) (s : State) (h : 0 < s.ntries) : startTimed p F s = exchangeWaiting p F s := by
  have h' : s.ntries ≠ 0 := by omega
  cases p <;> simp [startTimed, freshRecognizer, loopCheckIfTimed, timedPhase, timeoutError, loopCheckWith,
    exchangeStart, exchangeWaiting, h', startAttempt_eq, afterWrite, retxAfter]

/-! ## Taking bytes -/

/-- In `P_IDLE` a byte waits in the channel's queue (R9, R63). -/
theorem rxInput_idle {s : State} (h : s.phase = .idle) (b : Byte) :
    rxInput b s = .next { s with rxq := s.rxq ++ [b] } := by
  simp [rxInput, takeHead, h]

/-- Outside `P_IDLE`, with nothing waiting, the byte itself is taken. -/
theorem rxInput_fresh {s : State} (h : s.phase ≠ .idle) (hq : s.rxq = []) (b : Byte) :
    rxInput b s = rxTaken b { s with rxq := [] } := by
  simp [rxInput, takeHead, h, hq]

@[simp] theorem rxBytes_nil (s : State) : rxBytes [] s = .next s := rfl

@[simp] theorem rxBytes_cons (b : Byte) (B : Bytes) (s : State) :
    rxBytes (b :: B) s = andThen (rxInput b s) (rxBytes B) := rfl

/-- In a supervision wait the byte goes to the recognizer (R149). -/
theorem rxTaken_supervision {s : State} {x : Expectation} (h : expectation s.phase = some x) (b : Byte) :
    rxTaken b s = rxSupervision x b s := by
  simp [rxTaken, h]

/-- In `P_RECV_CAPTURE` the byte goes to the capture (R150). -/
theorem rxTaken_capture {s : State} (h : s.phase = .recvCapture) (b : Byte) :
    rxTaken b s = .next (rxCapture b s) := by
  simp [rxTaken, h, expectation]

/-- A byte that completes no frame only moves the recognizer, and then the bound is tested (R177). -/
theorem rxSupervision_none {x : Expectation} {b : Byte} {s : State} (h : (recOut x b s).accept = none) :
    rxSupervision x b s = .next (loopCheckIfTimed (recWrite (recOut x b s) s)) := by
  simp [rxSupervision, h]

/-- A byte that completes a frame: count, dispatch, bound test (R177). -/
theorem rxSupervision_some {x : Expectation} {b c : Byte} {s : State} (h : (recOut x b s).accept = some c) :
    rxSupervision x b s =
      andThen (handleAccept c (countRx (recWrite (recOut x b s) s))) (fun u => .next (loopCheckIfTimed u)) := by
  simp [rxSupervision, h]

/-- Accept is raised on a flag in `R_BCC` and nowhere else, with the control byte held (R145). -/
theorem recNext_accept {x : Expectation} {r : RecState} {k b c : Byte} :
    (recNext x r k b).accept = some c ↔ r = .bcc ∧ b = flag ∧ c = k := by
  cases r <;> simp [recNext] <;> try (split <;> simp)
  aesop

/-- In every wait a flag takes the recognizer from `R_FLAG`, `R_ADDR` and `R_CTRL` to `R_FLAG`, whichever of its two tests
comes first (R99, R147, R264(e)). -/
theorem recNext_on_flag {p : Phase} {x : Expectation} (hx : expectation p = some x) (k : Byte) :
    recNext x .flag k flag = ⟨.flag, k, none⟩ ∧ recNext x .addr k flag = ⟨.flag, k, none⟩ ∧
    (k ∈ x.ctrls → recNext x .ctrl k flag = ⟨.flag, k, none⟩) := by
  have ha : flag ≠ x.addr := by cases p <;> cases hx <;> decide
  have hc : flag ∉ x.ctrls := by cases p <;> cases hx <;> decide
  have hb : ∀ c ∈ x.ctrls, flag ≠ bcc1 x.addr c := by cases p <;> cases hx <;> decide
  exact ⟨by simp [recNext, resync, ha], by simp [recNext, resync, hc], fun hk => by simp [recNext, resync, hb k hk]⟩

/-- Inside a frame the control byte held is an expected one (R143). -/
theorem recNext_ctrl {x : Expectation} {r : RecState} {k b : Byte}
    (hk : r = .ctrl ∨ r = .bcc → k ∈ x.ctrls)
    (h : (recNext x r k b).state = .ctrl ∨ (recNext x r k b).state = .bcc) : (recNext x r k b).ctrl ∈ x.ctrls := by
  cases r with
  | bcc => simp [recNext] at h
  | idle => simp only [recNext, resync] at h; split at h <;> simp at h
  | flag => simp only [recNext, resync] at h; split at h <;> (try split at h) <;> simp at h
  | addr =>
    by_cases hb : b ∈ x.ctrls
    · simp [recNext, hb]
    · simp only [recNext, resync, hb, if_false] at h; split at h <;> simp at h
  | ctrl => simp only [recNext]; split <;> exact hk (.inl rfl)

/-- The capture keeps its buffer free of flags (R46(g)). -/
theorem capNext_noflag {cap : Option Nat} {r : CapState} {buf : Bytes} {ovf : Bool} {b : Byte}
    (h : flag ∉ buf) : flag ∉ (capNext cap r buf ovf b).buf := by
  by_cases hb : b = flag
  · cases r <;> simp [capNext, hb, h]
  · have hb' : ¬ flag = b := fun e => hb e.symm
    cases r <;> simp only [capNext, hb, if_false]
    · exact h
    · simpa using hb'
    · split
      · simp only [List.mem_append, List.mem_singleton, not_or]
        exact ⟨h, hb'⟩
      · exact h

end Sys2Proof.Machine
end

