-- ==== Sys2Proof/Laws/Decode.lean ====
section
/-! SUPPORT. The port words read back what they were written from, and what `decode` gives is well formed. -/

namespace Sys2Proof

open Machine

@[simp] theorem wByte_toNat (b : Byte) : wByte b.toNat = some b := by
  simp [wByte, b.isLt]

@[simp] theorem wBit_toNat (b : Bit) : wBit b.toNat = some b := by
  simp [wBit, b.isLt]

@[simp] theorem wBool_toNat (b : Bool) : wBool b.toNat = some b := by
  cases b <;> rfl

@[simp] theorem wTimed_timedWord (p : TimedPhase) : wTimed (timedWord p) = some p := by
  cases p <;> rfl

@[simp] theorem wStatus_code (e : Status) : wStatus (statusCode e).toNat = some e := by
  cases e <;> rfl

@[simp] theorem wRole_code (r : Role) : wRole (roleCode r) = some r := by
  cases r <;> rfl

@[simp] theorem bytesWords_nil : bytesWords [] = [] := rfl

@[simp] theorem bytesWords_cons (b : Byte) (B : Bytes) : bytesWords (b :: B) = b.toNat :: bytesWords B := rfl

@[simp] theorem bytesWords_length (B : Bytes) : (bytesWords B).length = B.length := by
  simp [bytesWords]

@[simp] theorem wBytes_bytesWords (B : Bytes) : wBytes (bytesWords B) = some B := by
  induction B with
  | nil => rfl
  | cons b B ih => simp [wBytes, ih]

/-- A byte word is the number of its byte. -/
theorem wByte_eq_some {w : Nat} {b : Byte} (h : wByte w = some b) : w = b.toNat := by
  unfold wByte at h
  split at h
  · cases h; simp; omega
  · cases h

/-- Byte words are the numbers of their bytes. -/
theorem wBytes_eq_some {ws : List Nat} {B : Bytes} (h : wBytes ws = some B) : ws = bytesWords B := by
  induction ws generalizing B with
  | nil => simp [wBytes] at h; subst h; rfl
  | cons w ws ih =>
    unfold wBytes at h
    split at h
    · rename_i b B' hb hB
      cases h
      rw [wByte_eq_some hb, ih hB]; rfl
    · cases h

/-- Every instruction the decoder gives is well formed. -/
theorem decode_wf {r : Record} {i : Instr} (h : decode r = .ok i) : i.wf = true := by
  unfold decode at h
  split at h
  · split at h
    · cases h; assumption
    · cases h
  · cases h

/-- A well-formed instruction that the parser reads is what the decoder gives. -/
theorem decode_of_parse {r : Record} {i : Instr} (h : parse r = .ok i) (hw : i.wf = true) : decode r = .ok i := by
  simp [decode, h, hw]

/-- What the decoder gives, the parser read. -/
theorem parse_of_decode {r : Record} {i : Instr} (h : decode r = .ok i) : parse r = .ok i := by
  unfold decode at h
  split at h
  · rename_i j hj
    split at h
    · cases h; exact hj
    · cases h
  · cases h

end Sys2Proof
end

