-- ==== Sys2Proof/Laws/Inputs.lean ====
section
/-! SUPPORT. Everything a byte taken from the channel can do (R177, R206, R226, R227), said once: `Effect s t` lists the
outcomes, `rxInput_effect` says there is no other, and `rxBytes_invariant` carries a property along an arrival. -/

namespace Sys2Proof.Machine

/-- What no byte from the line ever writes: the configuration, the parameters, the pending records and `ret`. -/
structure KeepsConfig (s t : State) : Prop where
  role : t.role = s.role
  ntries : t.ntries = s.ntries
  timeout : t.timeout = s.timeout
  params : t.params = s.params
  inputs : t.inputs = s.inputs
  ret : t.ret = s.ret

/-- Nothing but the fields of the wait in progress differs: session, phase, sequence numbers, `err` and `txf` are kept. -/
structure KeepsSession (s t : State) : Prop where
  sess : t.sess = s.sess
  phase : t.phase = s.phase
  ns : t.ns = s.ns
  nr : t.nr = s.nr
  lrfn : t.lrfn = s.lrfn
  err : t.err = s.err
  txf : t.txf = s.txf

/-- The outcomes of a step that takes at most one byte. -/
inductive Effect (s t : State) : Prop where
  /-- The wait goes on; at most the latched frame is written again (R172, R222). -/
  | waits (os : List Output) (h : KeepsSession s t) (out : t.out = s.out ++ os)
      (hos : ∀ o ∈ os, (o = .tx s.txf ∧ isTimed s.phase = true) ∨ (∃ d, o = .tmrStart d) ∨ o = .tmrCancel)
  /-- The bound is reached (R176). -/
  | fails (e : Status) (os : List Output) (he : timeoutError s.phase = some e)
      (sess : t.sess = .failed) (phase : t.phase = .idle) (err : t.err = e)
      (ns : t.ns = s.ns) (nr : t.nr = s.nr) (lrfn : t.lrfn = s.lrfn) (txf : t.txf = s.txf)
      (out : t.out = s.out ++ os ++ [.done e none]) (hos : ∀ o ∈ os, o = .tmrCancel)
  /-- A handshake ends (R193, R195, R198, R201). -/
  | handshake (os : List Output)
      (sess : ((s.phase = .openTxWaitUa ∨ s.phase = .openRxWaitSet) ∧ t.sess = .opened) ∨
        ((s.phase = .closeTxWaitDisc ∨ s.phase = .closeRxWaitUa) ∧ t.sess = .closed))
      (phase : t.phase = .idle) (err : t.err = s.err)
      (ns : t.ns = s.ns) (nr : t.nr = s.nr) (lrfn : t.lrfn = s.lrfn) (txf : t.txf = s.txf)
      (out : t.out = s.out ++ os ++ [.done .ok none])
      (hos : ∀ o ∈ os, o = .tmrCancel ∨ o = .chanClose ∨ ∃ F, o = .tx F)
  /-- The frame of a SEND is acknowledged (R221). -/
  | acknowledged (os : List Output) (before : s.phase = .sendWaitAck) (phase : t.phase = .idle)
      (sess : t.sess = s.sess) (err : t.err = s.err)
      (ns : t.ns = ~~~ s.ns) (nr : t.nr = s.nr) (lrfn : t.lrfn = s.lrfn) (txf : t.txf = s.txf)
      (out : t.out = s.out ++ os ++ [.done .ok none]) (hos : ∀ o ∈ os, o = .tmrCancel)
  /-- The Receiver answers DISC (R200). -/
  | answersDisc (before : s.phase = .closeRxWaitDisc)
      (ns : t.ns = s.ns) (nr : t.nr = s.nr) (lrfn : t.lrfn = s.lrfn)
      (after : (t.phase = .closeRxWaitUa ∧ t.sess = s.sess ∧ t.err = s.err ∧
          t.out = s.out ++ [.tx (encSup aRx cDisc), .tmrStart s.timeout]) ∨
        (t.phase = .idle ∧ t.sess = .failed ∧ t.err = .disconnectTimeout ∧
          t.out = s.out ++ [.done .disconnectTimeout none]))
  /-- A body is rejected or a duplicate is acknowledged (R228 to R231). -/
  | reports (k : Event) (c : Byte) (before : s.phase = .recvCapture) (h : KeepsSession s t)
      (out : t.out = s.out ++ [.ev k, .tx (encSup aRx c)])
  /-- A new frame is delivered (R232). -/
  | delivers (b : Bit) (P : Bytes) (c : Byte) (before : s.phase = .recvCapture) (phase : t.phase = .idle)
      (new : b ≠ s.lrfn) (sess : t.sess = s.sess) (err : t.err = s.err)
      (ns : t.ns = s.ns) (nr : t.nr = ~~~ s.nr) (lrfn : t.lrfn = b) (txf : t.txf = s.txf)
      (out : t.out = s.out ++ [.tx (encSup aRx c), .done .ok (some P)])

/-- Nothing happens. -/
theorem effect_refl {s t : State} (h : KeepsSession s t) (out : t.out = s.out) : Effect s t :=
  .waits [] h (by simp [out]) (by simp)

/-- The bound test after a state that differs from `s` in the wait's own fields only (R172). -/
theorem loopCheck_effect {s u : State} (os : List Output) (hc : KeepsConfig s u) (h : KeepsSession s u)
    (out : u.out = s.out ++ os) (hos : ∀ o ∈ os, o = .tmrCancel) :
    KeepsConfig s (loopCheckIfTimed u) ∧ Effect s (loopCheckIfTimed u) := by
  cases he : timeoutError u.phase with
  | none =>
    rw [loopCheckIfTimed_untimed he]
    exact ⟨hc, .waits os h out (fun o ho => .inr (.inr (hos o ho)))⟩
  | some e =>
    rw [loopCheckIfTimed_timed he]
    have he' : timeoutError s.phase = some e := by rw [← h.phase]; exact he
    rcases loopCheckWith_cases e u with ⟨_, h'⟩ | ⟨_, _, h'⟩ | ⟨_, _, h'⟩ <;> rw [h']
    · rw [fail_eq]
      refine ⟨⟨hc.role, hc.ntries, hc.timeout, hc.params, hc.inputs, hc.ret⟩,
        .fails e (os ++ cancelOut u) he' rfl rfl rfl h.ns h.nr h.lrfn h.txf ?_ ?_⟩
      · simp [afterFail, out]
      · intro o ho
        rcases List.mem_append.1 ho with ho | ho
        · exact hos o ho
        · unfold cancelOut at ho; split at ho <;> simp at ho; exact ho
    · exact ⟨hc, .waits os h out (fun o ho => .inr (.inr (hos o ho)))⟩
    · rw [startAttempt_eq]
      refine ⟨⟨hc.role, hc.ntries, hc.timeout, hc.params, hc.inputs, hc.ret⟩,
        .waits (os ++ [.tx u.txf, .tmrStart u.timeout])
          ⟨h.sess, h.phase, h.ns, h.nr, h.lrfn, h.err, h.txf⟩ ?_ ?_⟩
      · simp [afterWrite, out]
      · intro o ho
        rcases List.mem_append.1 ho with ho | ho
        · exact .inr (.inr (hos o ho))
        · simp only [List.mem_cons, List.not_mem_nil, or_false] at ho
          rcases ho with rfl | rfl
          · refine .inl ⟨by rw [h.txf], ?_⟩
            simp [isTimed, he']
          · exact .inr (.inl ⟨_, rfl⟩)

/-- `HandleAccept` and the bound test after it (R177, R206), from a state that differs from `s` in the recognizer and
the counters only. -/
theorem handleAccept_effect {s u v : State} {c : Byte} (hc : KeepsConfig s u) (h : KeepsSession s u)
    (out : u.out = s.out) (hv : handleAccept c u = .next v) :
    KeepsConfig s (loopCheckIfTimed v) ∧ Effect s (loopCheckIfTimed v) := by
  obtain ⟨c1, c2, c3, c4, c5, c6⟩ := hc
  obtain ⟨k1, k2, k3, k4, k5, k6, k7⟩ := h
  have hcan : ∀ o ∈ cancelOut u, o = .tmrCancel := by
    intro o ho; unfold cancelOut at ho; split at ho <;> simp at ho; exact ho
  have idle : ∀ w : State, w.phase = .idle → loopCheckIfTimed w = w := by
    intro w hw; exact loopCheckIfTimed_untimed (by rw [hw]; rfl)
  unfold handleAccept at hv
  cases hp : u.phase <;> rw [hp] at hv <;> simp only [acceptOnly] at hv
  case idle => cases hv
  case recvCapture => cases hv
  case openTxWaitUa =>
    split at hv <;> cases hv
    rw [idle _ rfl]
    simp only [acceptOpenTx, cancelTimer_eq, complete, emit]
    exact ⟨⟨c1, c2, c3, c4, c5, c6⟩, .handshake (cancelOut u) (.inl ⟨.inl (k2 ▸ hp), rfl⟩) rfl k6 k3 k4 k5 k7
      (by simp [out]) (fun o ho => .inl (hcan o ho))⟩
  case openRxWaitSet =>
    split at hv <;> cases hv
    rw [idle _ rfl]
    simp only [acceptOpenRx, complete, emit, writeFrame]
    exact ⟨⟨c1, c2, c3, c4, c5, c6⟩, .handshake [.tx (encSup aRx cUa)] (.inl ⟨.inr (k2 ▸ hp), rfl⟩) rfl k6 k3 k4 k5 k7
      (by simp [out]) (by simp)⟩
  case closeTxWaitDisc =>
    split at hv <;> cases hv
    rw [idle _ rfl]
    simp only [acceptCloseTx, cancelTimer_eq, complete, emit, writeFrame]
    refine ⟨⟨c1, c2, c3, c4, c5, c6⟩, .handshake (cancelOut u ++ [.tx (encSup aTx cUa), .chanClose])
      (.inr ⟨.inl (k2 ▸ hp), rfl⟩) rfl k6 k3 k4 k5 k7 (by simp [out]) ?_⟩
    intro o ho
    rcases List.mem_append.1 ho with ho | ho
    · exact .inl (hcan o ho)
    · simp only [List.mem_cons, List.not_mem_nil, or_false] at ho
      rcases ho with rfl | rfl
      · exact .inr (.inr ⟨_, rfl⟩)
      · exact .inr (.inl rfl)
  case closeRxWaitUa =>
    split at hv <;> cases hv
    rw [idle _ rfl]
    simp only [acceptCloseRxUa, cancelTimer_eq, complete, emit]
    refine ⟨⟨c1, c2, c3, c4, c5, c6⟩, .handshake (cancelOut u ++ [.chanClose])
      (.inr ⟨.inr (k2 ▸ hp), rfl⟩) rfl k6 k3 k4 k5 k7 (by simp [out]) ?_⟩
    intro o ho
    rcases List.mem_append.1 ho with ho | ho
    · exact .inl (hcan o ho)
    · simp only [List.mem_cons, List.not_mem_nil, or_false] at ho
      exact .inr (.inl ho)
  case closeRxWaitDisc =>
    split at hv <;> cases hv
    simp only [acceptCloseRxDisc]
    rcases Nat.eq_zero_or_pos u.ntries with h0 | h0
    · obtain ⟨e, he, h'⟩ := startTimed_zero .closeRxWaitUa (encSup aRx cDisc) u h0
      cases he
      rw [h', fail_eq, idle _ rfl]
      simp only [afterFail, exchangeStart, cancelOut]
      exact ⟨⟨c1, c2, c3, c4, c5, c6⟩, .answersDisc (k2 ▸ hp) k3 k4 k5 (.inr ⟨rfl, rfl, rfl, by simp [out]⟩)⟩
    · rw [startTimed_pos _ _ _ h0]
      have hn : ¬ u.ntries ≤ 0 := by omega
      have : loopCheckIfTimed (exchangeWaiting .closeRxWaitUa (encSup aRx cDisc) u) =
          exchangeWaiting .closeRxWaitUa (encSup aRx cDisc) u := by
        rw [loopCheckIfTimed_timed (e := .disconnectTimeout) rfl]
        simp [loopCheckWith, exchangeWaiting, exchangeStart, hn]
      rw [this]
      simp only [exchangeWaiting, exchangeStart]
      exact ⟨⟨c1, c2, c3, c4, c5, c6⟩, .answersDisc (k2 ▸ hp) k3 k4 k5 (.inl ⟨rfl, k1, k6, by simp [out, c3]⟩)⟩
  case sendWaitAck =>
    unfold acceptSend at hv
    split at hv
    · cases hv
      rw [idle _ rfl]
      simp only [acceptAck, cancelTimer_eq, complete, emit]
      exact ⟨⟨c1, c2, c3, c4, c5, c6⟩, .acknowledged (cancelOut u) (k2 ▸ hp) rfl k1 k6 (by simp [k3]) k4 k5 k7
        (by simp [out]) hcan⟩
    · split at hv
      · cases hv
        unfold acceptReject
        split
        · rw [cancelTimer_eq]
          exact loopCheck_effect (cancelOut u) ⟨c1, c2, c3, c4, c5, c6⟩ ⟨k1, k2, k3, k4, k5, k6, k7⟩
            (by simp [out]) hcan
        · exact loopCheck_effect [] ⟨c1, c2, c3, c4, c5, c6⟩ ⟨k1, k2, k3, k4, k5, k6, k7⟩ (by simp [out]) (by simp)
      · split at hv
        · cases hv
          exact loopCheck_effect [] ⟨c1, c2, c3, c4, c5, c6⟩ ⟨k1, k2, k3, k4, k5, k6, k7⟩ (by simp [out]) (by simp)
        · cases hv

/-- `ProcessBody` (R227), from a state that differs from `s` in the capture only. -/
theorem processBody_effect {s u : State} (B : Bytes) (ovf : Bool) (hp : s.phase = .recvCapture)
    (hc : KeepsConfig s u) (h : KeepsSession s u) (out : u.out = s.out) :
    KeepsConfig s (processBody B ovf u) ∧ Effect s (processBody B ovf u) := by
  obtain ⟨c1, c2, c3, c4, c5, c6⟩ := hc
  obtain ⟨k1, k2, k3, k4, k5, k6, k7⟩ := h
  unfold processBody
  have rej : ∀ k, KeepsConfig s (rejectBody k u) ∧ Effect s (rejectBody k u) := fun k => by
    simp only [rejectBody, report, writeFrame, emit]
    exact ⟨⟨c1, c2, c3, c4, c5, c6⟩, .reports k (cRej u.nr) hp ⟨k1, k2, k3, k4, k5, k6, k7⟩ (by simp [out])⟩
  cases decInfo B ovf with
  | headerBad => exact rej _
  | escapeBad => exact rej _
  | checksumBad => exact rej _
  | good b P =>
    simp only
    split
    · simp only [duplicateBody, report, writeFrame, emit, countRx]
      exact ⟨⟨c1, c2, c3, c4, c5, c6⟩, .reports .duplicateFrame (cRR u.nr) hp ⟨k1, k2, k3, k4, k5, k6, k7⟩
        (by simp [out])⟩
    · rename_i hb
      simp only [deliverBody, writeFrame, emit, countRx]
      exact ⟨⟨c1, c2, c3, c4, c5, c6⟩, .delivers b P (cRR (~~~ u.nr)) hp rfl (k5 ▸ hb) k1 k6 k3 (by simp [k4]) rfl k7
        (by simp [out])⟩

/-- A byte the block takes has one of the listed effects. -/
theorem rxTaken_effect {s t : State} {b : Byte} (h : rxTaken b s = .next t) : KeepsConfig s t ∧ Effect s t := by
  cases hx : expectation s.phase with
  | some x =>
    rw [rxTaken_supervision hx] at h
    cases ha : (recOut x b s).accept with
    | none =>
      rw [rxSupervision_none ha] at h; cases h
      exact loopCheck_effect [] ⟨rfl, rfl, rfl, rfl, rfl, rfl⟩ ⟨rfl, rfl, rfl, rfl, rfl, rfl, rfl⟩
        (by simp [recWrite]) (by simp)
    | some c =>
      rw [rxSupervision_some ha] at h
      obtain ⟨v, hv, h⟩ := andThen_eq_next h
      cases h
      exact handleAccept_effect (s := s) (u := countRx (recWrite (recOut x b s) s)) ⟨rfl, rfl, rfl, rfl, rfl, rfl⟩
        ⟨rfl, rfl, rfl, rfl, rfl, rfl, rfl⟩ rfl hv
  | none =>
    simp only [rxTaken, hx] at h
    have h := Host.Outcome.next.inj h
    split at h
    · rename_i hp
      subst h
      simp only [rxCapture]
      split
      · exact ⟨⟨rfl, rfl, rfl, rfl, rfl, rfl⟩, effect_refl ⟨rfl, rfl, rfl, rfl, rfl, rfl, rfl⟩ rfl⟩
      · exact processBody_effect _ _ hp ⟨rfl, rfl, rfl, rfl, rfl, rfl⟩ ⟨rfl, rfl, rfl, rfl, rfl, rfl, rfl⟩ rfl
    · subst h
      exact ⟨⟨rfl, rfl, rfl, rfl, rfl, rfl⟩, effect_refl ⟨rfl, rfl, rfl, rfl, rfl, rfl, rfl⟩ rfl⟩

/-- Effects do not see the channel's queue. -/
theorem effect_queue {s t : State} {q : Bytes} (h : KeepsConfig { s with rxq := q } t ∧ Effect { s with rxq := q } t) :
    KeepsConfig s t ∧ Effect s t := by
  obtain ⟨⟨c1, c2, c3, c4, c5, c6⟩, e⟩ := h
  refine ⟨⟨c1, c2, c3, c4, c5, c6⟩, ?_⟩
  cases e with
  | waits os h out hos => exact .waits os ⟨h.1, h.2, h.3, h.4, h.5, h.6, h.7⟩ out hos
  | fails e os a1 a2 a3 a4 a5 a6 a7 a8 a9 a10 => exact .fails e os a1 a2 a3 a4 a5 a6 a7 a8 a9 a10
  | handshake os a1 a2 a3 a4 a5 a6 a7 a8 a9 => exact .handshake os a1 a2 a3 a4 a5 a6 a7 a8 a9
  | acknowledged os a1 a2 a3 a4 a5 a6 a7 a8 a9 a10 => exact .acknowledged os a1 a2 a3 a4 a5 a6 a7 a8 a9 a10
  | answersDisc a1 a2 a3 a4 a5 => exact .answersDisc a1 a2 a3 a4 a5
  | reports k c a1 h out => exact .reports k c a1 ⟨h.1, h.2, h.3, h.4, h.5, h.6, h.7⟩ out
  | delivers b P c a1 a2 a3 a4 a5 a6 a7 a8 a9 a10 => exact .delivers b P c a1 a2 a3 a4 a5 a6 a7 a8 a9 a10

/-- Taking the head of the queue has one of the listed effects. -/
theorem takeHead_effect {s t : State} (h : takeHead s = .next t) : KeepsConfig s t ∧ Effect s t := by
  unfold takeHead at h
  split at h
  · cases h
    exact ⟨⟨rfl, rfl, rfl, rfl, rfl, rfl⟩, effect_refl ⟨rfl, rfl, rfl, rfl, rfl, rfl, rfl⟩ rfl⟩
  · split at h
    · cases h
      exact ⟨⟨rfl, rfl, rfl, rfl, rfl, rfl⟩, effect_refl ⟨rfl, rfl, rfl, rfl, rfl, rfl, rfl⟩ rfl⟩
    · exact effect_queue (rxTaken_effect h)

/-- A byte that arrives has one of the listed effects. -/
theorem rxInput_effect {s t : State} {b : Byte} (h : rxInput b s = .next t) : KeepsConfig s t ∧ Effect s t :=
  effect_queue (takeHead_effect h)

/-- The bound test alone has one of the listed effects (R174). -/
theorem tickInput_effect (s : State) : KeepsConfig s (tickInput s) ∧ Effect s (tickInput s) :=
  loopCheck_effect [] ⟨rfl, rfl, rfl, rfl, rfl, rfl⟩ ⟨rfl, rfl, rfl, rfl, rfl, rfl, rfl⟩ (by simp) (by simp)

/-- In `P_IDLE` an arriving byte changes the queue only. -/
theorem rxInput_idle_next {s t : State} {b : Byte} (hp : s.phase = .idle) (h : rxInput b s = .next t) :
    t = { s with rxq := s.rxq ++ [b] } := by
  rw [rxInput_idle hp] at h; cases h; rfl

/-- A property that every byte keeps is kept by an arrival of any length. -/
theorem rxBytes_invariant {P : State → Prop} (step : ∀ (b : Byte) (s t : State), P s → rxInput b s = .next t → P t)
    {B : Bytes} {s t : State} (hs : P s) (h : rxBytes B s = .next t) : P t := by
  induction B generalizing s with
  | nil => cases h; exact hs
  | cons b B ih =>
    rw [rxBytes_cons] at h
    obtain ⟨u, hu, h⟩ := andThen_eq_next h
    exact ih (step b s u hs hu) h

end Sys2Proof.Machine
end

