-- ==== Sys2Proof/Laws/Exec.lean ====
section
/-! SUPPORT. `exec` on the rows the environment may present, said once for all of them: an arrival is a sequence of bytes,
the other input events are their shared operation, and a command runs its body in `P_IDLE`. -/

namespace Sys2Proof.Machine

/-- The ways an accepted command can leave the state (R191, R196, R204, R205, R220, R225). -/
inductive CommandEffect (s : State) : Instr → State → Prop where
  | nop : CommandEffect s .nop s
  /-- The refused commands: every code but NOP. -/
  | refused (i : Instr) (e : Status) (he : e = .illegalCommand ∨ e = .payloadTooLong) (hi : i ≠ .nop) :
      CommandEffect s i (refuse e s)
  | opensTx (n d : Nat) (hs : s.sess = .closed) :
      CommandEffect s (.openCmd .tx n d) (startTimed .openTxWaitUa (encSup aTx cSet) (openSession .tx n d s))
  | opensRx (n d : Nat) (hs : s.sess = .closed) :
      CommandEffect s (.openCmd .rx n d) (freshRecognizer { openSession .rx n d s with phase := .openRxWaitSet })
  | sends (P : Bytes) (hs : s.sess = .opened) (hr : s.role = .tx) :
      CommandEffect s (.sendCmd P) (startTimed .sendWaitAck (encInfo s.ns P) s)
  | receives (hs : s.sess = .opened) (hr : s.role = .rx) :
      CommandEffect s .receiveCmd { s with phase := .recvCapture, capState := .idle, capBuf := [], capOvf := false }
  | closesTx (hs : s.sess = .opened) (hr : s.role = .tx) :
      CommandEffect s .closeCmd (startTimed .closeTxWaitDisc (encSup aTx cDisc) { s with sess := .closing })
  | closesRx (hs : s.sess = .opened) (hr : s.role = .rx) :
      CommandEffect s .closeCmd (freshRecognizer { s with sess := .closing, phase := .closeRxWaitDisc })

/-- A command that has a step was taken in `P_IDLE` and has one of the listed effects (R9, R269). -/
theorem exec_command {s t : State} {i : Instr} (hc : isCommand i = true) (h : exec i s = .next t) :
    s.phase = .idle ∧ CommandEffect s i t := by
  have ready : ∀ u : State, whenReady s u = .next t → s.phase = .idle ∧ t = u := by
    intro u hu
    unfold whenReady at hu
    split at hu
    · cases hu; exact ⟨by assumption, rfl⟩
    · cases hu
  cases i <;> simp [isCommand] at hc
  case nop => obtain ⟨hp, rfl⟩ := ready _ h; exact ⟨hp, .nop⟩
  case openCmd r n d =>
    obtain ⟨hp, rfl⟩ := ready _ h
    refine ⟨hp, ?_⟩
    unfold openBody
    split
    · rename_i hs
      cases r with
      | tx => exact .opensTx n d hs
      | rx => exact .opensRx n d hs
    · exact .refused _ _ (.inl rfl) (by simp)
  case sendCmd P =>
    obtain ⟨hp, rfl⟩ := ready _ h
    refine ⟨hp, ?_⟩
    unfold sendBody
    split
    · rename_i hs
      split
      · exact .sends P hs.1 hs.2
      · exact .refused _ _ (.inr rfl) (by simp)
    · exact .refused _ _ (.inl rfl) (by simp)
  case receiveCmd =>
    obtain ⟨hp, rfl⟩ := ready _ h
    refine ⟨hp, ?_⟩
    unfold receiveBody
    split
    · rename_i hs; exact .receives hs.1 hs.2
    · exact .refused _ _ (.inl rfl) (by simp)
  case closeCmd =>
    obtain ⟨hp, rfl⟩ := ready _ h
    refine ⟨hp, ?_⟩
    unfold closeBody
    split
    · rename_i hs
      split
      · exact .closesTx hs (by assumption)
      · exact .closesRx hs (by assumption)
    · exact .refused _ _ (.inl rfl) (by simp)
  case reserved5 => obtain ⟨hp, rfl⟩ := ready _ h; exact ⟨hp, .refused _ _ (.inl rfl) (by simp)⟩
  case reserved6 => obtain ⟨hp, rfl⟩ := ready _ h; exact ⟨hp, .refused _ _ (.inl rfl) (by simp)⟩
  case reserved7 => obtain ⟨hp, rfl⟩ := ready _ h; exact ⟨hp, .refused _ _ (.inl rfl) (by simp)⟩

/-- One byte is an arrival of one byte. -/
theorem rxInput_eq_rxBytes (b : Byte) (s : State) : rxInput b s = rxBytes [b] s := by
  rw [rxBytes_cons]
  cases rxInput b s <;> rfl

/-- An input that is no command is an arrival of bytes, an empty read, an expiry or a reset (R5, R104). -/
theorem exec_event {s t : State} {i : Instr} (hi : isInput i = true) (hc : isCommand i = false) (h : exec i s = .next t) :
    (∃ B, rxBytes B s = .next t) ∨ (i = .tick ∧ t = tickInput s) ∨ (i = .expire ∧ t = expireFlags s) ∨
      (i = .resetInput ∧ t = resetRegisters s) := by
  have byte : ∀ b, rxInput b s = .next t → ∃ B, rxBytes B s = .next t := fun b hb =>
    ⟨[b], by rw [← rxInput_eq_rxBytes]; exact hb⟩
  cases i <;> simp [isInput, isCommand] at hi hc <;> try exact .inl ⟨_, h⟩
  case rxbyteSup b => exact .inl (byte b h)
  case rxbyteCap b => exact .inl (byte b h)
  case tick => exact .inr (.inl ⟨rfl, (Host.Outcome.next.inj h).symm⟩)
  case expire => exact .inr (.inr (.inl ⟨rfl, (Host.Outcome.next.inj h).symm⟩))
  case resetInput => exact .inr (.inr (.inr ⟨rfl, (Host.Outcome.next.inj h).symm⟩))

/-- A timed exchange that starts either fails at once or waits with its frame written (R171, R182). -/
theorem startTimed_cases (p : TimedPhase) (F : Bytes) (s : State) :
    (s.ntries = 0 ∧ ∃ e, timeoutError (timedPhase p) = some e ∧
      startTimed p F s = afterFail e (exchangeStart p F s)) ∨
    (0 < s.ntries ∧ startTimed p F s = exchangeWaiting p F s) := by
  rcases Nat.eq_zero_or_pos s.ntries with h0 | h0
  · obtain ⟨e, he, h⟩ := startTimed_zero p F s h0
    exact .inl ⟨h0, e, he, by rw [h, fail_eq]⟩
  · exact .inr ⟨h0, startTimed_pos p F s h0⟩

end Sys2Proof.Machine
end

