-- ==== Sys2Proof/Laws/PerInstr.lean ====
section
/-! SUPPORT. The family `EncodeHead`: what the first word of an encoded instruction is, per instruction. A frame's
record opens with the flag, a pair's with the escape, a command's with its code, any other row's with 256 plus its
index in spec/opcode_table.json. -/

namespace Sys2Proof.Laws.EncodeHead

/-- The first word of an instruction's record. -/
def headWord : Instr → Nat
  | .set => 0x7E
  | .uaRx => 0x7E
  | .uaTx => 0x7E
  | .discTx => 0x7E
  | .discRx => 0x7E
  | .rr0 => 0x7E
  | .rr1 => 0x7E
  | .rej0 => 0x7E
  | .rej1 => 0x7E
  | .i0 _ => 0x7E
  | .i1 _ => 0x7E
  | .rrS _ => 256 + 11
  | .rejS _ => 256 + 12
  | .iS _ _ => 256 + 13
  | .escFlag => 0x7D
  | .escEsc => 0x7D
  | .nop => 0
  | .openCmd _ _ _ => 1
  | .sendCmd _ => 2
  | .receiveCmd => 3
  | .closeCmd => 4
  | .reserved5 => 5
  | .reserved6 => 6
  | .reserved7 => 7
  | .rxbyteSup _ => 256 + 24
  | .rxbyteCap _ => 256 + 25
  | .tick => 256 + 26
  | .expire => 256 + 27
  | .resetInput => 256 + 28
  | .bcc1 _ _ => 256 + 29
  | .bcc2 _ => 256 + 30
  | .stuff _ => 256 + 31
  | .destuff _ => 256 + 32
  | .encSup _ _ => 256 + 33
  | .encInfo _ _ => 256 + 34
  | .decInfo _ _ => 256 + 35
  | .recStep _ => 256 + 36
  | .capStep _ => 256 + 37
  | .startTimed _ _ => 256 + 38
  | .loopCheck => 256 + 39
  | .cancelTimer => 256 + 40
  | .fail _ => 256 + 41
  | .writeFrame _ => 256 + 42
  | .handleAccept _ => 256 + 43
  | .processBody _ _ => 256 + 44
  | .acceptUaOpenTx => 256 + 45
  | .acceptSetOpenRx => 256 + 46
  | .acceptDiscCloseTx => 256 + 47
  | .acceptDiscCloseRx => 256 + 48
  | .acceptUaCloseRx => 256 + 49
  | .acceptRrNext => 256 + 50
  | .acceptRej _ => 256 + 51
  | .acceptRrSame => 256 + 52
  | .bodyHeaderBad _ _ => 256 + 53
  | .bodyEscapeBad _ => 256 + 54
  | .bodyChecksumBad _ => 256 + 55
  | .bodyDuplicate _ => 256 + 56
  | .bodyNew _ => 256 + 57

/-- The record of an instruction opens with its head word. -/
def Statement (i : Instr) : Prop := (encode i).head? = some (headWord i)
theorem set : Statement .set := rfl
theorem uaRx : Statement .uaRx := rfl
theorem uaTx : Statement .uaTx := rfl
theorem discTx : Statement .discTx := rfl
theorem discRx : Statement .discRx := rfl
theorem rr0 : Statement .rr0 := rfl
theorem rr1 : Statement .rr1 := rfl
theorem rej0 : Statement .rej0 := rfl
theorem rej1 : Statement .rej1 := rfl
theorem i0 (P : Bytes) : Statement (.i0 P) := rfl
theorem i1 (P : Bytes) : Statement (.i1 P) := rfl
theorem rrS (s : Bit) : Statement (.rrS s) := rfl
theorem rejS (s : Bit) : Statement (.rejS s) := rfl
theorem iS (s : Bit) (P : Bytes) : Statement (.iS s P) := rfl
theorem escFlag : Statement .escFlag := rfl
theorem escEsc : Statement .escEsc := rfl
theorem nop : Statement .nop := rfl
theorem openCmd (r : Role) (n : Nat) (t : Nat) : Statement (.openCmd r n t) := rfl
theorem sendCmd (P : Bytes) : Statement (.sendCmd P) := rfl
theorem receiveCmd : Statement .receiveCmd := rfl
theorem closeCmd : Statement .closeCmd := rfl
theorem reserved5 : Statement .reserved5 := rfl
theorem reserved6 : Statement .reserved6 := rfl
theorem reserved7 : Statement .reserved7 := rfl
theorem rxbyteSup (b : Byte) : Statement (.rxbyteSup b) := rfl
theorem rxbyteCap (b : Byte) : Statement (.rxbyteCap b) := rfl
theorem tick : Statement .tick := rfl
theorem expire : Statement .expire := rfl
theorem resetInput : Statement .resetInput := rfl
theorem bcc1 (a : Byte) (c : Byte) : Statement (.bcc1 a c) := rfl
theorem bcc2 (P : Bytes) : Statement (.bcc2 P) := rfl
theorem stuff (B : Bytes) : Statement (.stuff B) := rfl
theorem destuff (S : Bytes) : Statement (.destuff S) := rfl
theorem encSup (a : Byte) (c : Byte) : Statement (.encSup a c) := rfl
theorem encInfo (s : Bit) (P : Bytes) : Statement (.encInfo s P) := rfl
theorem decInfo (B : Bytes) (ovf : Bool) : Statement (.decInfo B ovf) := rfl
theorem recStep (b : Byte) : Statement (.recStep b) := rfl
theorem capStep (b : Byte) : Statement (.capStep b) := rfl
theorem startTimed (p : TimedPhase) (F : Bytes) : Statement (.startTimed p F) := rfl
theorem loopCheck : Statement .loopCheck := rfl
theorem cancelTimer : Statement .cancelTimer := rfl
theorem fail (e : Status) : Statement (.fail e) := rfl
theorem writeFrame (F : Bytes) : Statement (.writeFrame F) := rfl
theorem handleAccept (c : Byte) : Statement (.handleAccept c) := rfl
theorem processBody (B : Bytes) (ovf : Bool) : Statement (.processBody B ovf) := rfl
theorem acceptUaOpenTx : Statement .acceptUaOpenTx := rfl
theorem acceptSetOpenRx : Statement .acceptSetOpenRx := rfl
theorem acceptDiscCloseTx : Statement .acceptDiscCloseTx := rfl
theorem acceptDiscCloseRx : Statement .acceptDiscCloseRx := rfl
theorem acceptUaCloseRx : Statement .acceptUaCloseRx := rfl
theorem acceptRrNext : Statement .acceptRrNext := rfl
theorem acceptRej (s : Bit) : Statement (.acceptRej s) := rfl
theorem acceptRrSame : Statement .acceptRrSame := rfl
theorem bodyHeaderBad (B : Bytes) (ovf : Bool) : Statement (.bodyHeaderBad B ovf) := rfl
theorem bodyEscapeBad (B : Bytes) : Statement (.bodyEscapeBad B) := rfl
theorem bodyChecksumBad (B : Bytes) : Statement (.bodyChecksumBad B) := rfl
theorem bodyDuplicate (B : Bytes) : Statement (.bodyDuplicate B) := rfl
theorem bodyNew (B : Bytes) : Statement (.bodyNew B) := rfl

end Sys2Proof.Laws.EncodeHead
end

