-- ==== Sys2Proof/Tests/Slice0.lean ====
section
/-! SUPPORT. Tests with expected values from the spec (each comment names the source): the smoke test of
well-formedness, the decoding of a written-out record for every constructor, one-step tests from the rules' examples and
spec/95_test_vectors.md, and a witness for the hypotheses of every statement of the certificate. -/

namespace Sys2Proof.Tests

open Machine

/-! ## Well-formedness: an ill-formed term for each check -/

theorem test_wf_refuses_frames :
    (Instr.startTimed .sendWaitAck [0x7E, 0x03]).wf = false ∧ (Instr.startTimed .sendWaitAck []).wf = false ∧
    (Instr.startTimed .sendWaitAck [0x7E]).wf = false ∧ (Instr.writeFrame [0x03, 0x7E]).wf = false ∧
    (Instr.writeFrame [0x7E, 0x7E, 0x7E]).wf = false := by decide

theorem test_wf_refuses_statuses :
    (Instr.fail .ok).wf = false ∧ (Instr.fail .deviceError).wf = false ∧ (Instr.fail .illegalCommand).wf = false ∧
    (Instr.fail .payloadTooLong).wf = false := by decide

theorem test_wf_refuses_controls :
    (Instr.handleAccept 0x00).wf = false ∧ (Instr.handleAccept 0x0F).wf = false := by decide

theorem test_wf_refuses_flags_in_bodies :
    (Instr.decInfo [0x03, 0x7E] false).wf = false ∧ (Instr.processBody [0x7E] true).wf = false ∧
    (Instr.bodyHeaderBad [0x7E] false).wf = false := by decide

theorem test_wf_refuses_bodies_of_another_row :
    (Instr.bodyHeaderBad [0x03, 0x00, 0x03, 0x00] false).wf = false ∧
    (Instr.bodyEscapeBad [0x03, 0x00, 0x03, 0x00]).wf = false ∧
    (Instr.bodyChecksumBad [0x03, 0x00, 0x03, 0x00]).wf = false ∧
    (Instr.bodyDuplicate [0x03, 0x00, 0x03]).wf = false ∧
    (Instr.bodyNew [0x55]).wf = false := by decide

/-! ## Decoding, a written-out record for every constructor -/

/-- Wire bytes of R97. -/
theorem test_decode_supervision_frames :
    decode [0x7E, 0x03, 0x03, 0x00, 0x7E] = .ok .set ∧
    decode [0x7E, 0x01, 0x07, 0x06, 0x7E] = .ok .uaRx ∧
    decode [0x7E, 0x03, 0x07, 0x04, 0x7E] = .ok .uaTx ∧
    decode [0x7E, 0x03, 0x0B, 0x08, 0x7E] = .ok .discTx ∧
    decode [0x7E, 0x01, 0x0B, 0x0A, 0x7E] = .ok .discRx ∧
    decode [0x7E, 0x01, 0x05, 0x04, 0x7E] = .ok .rr0 ∧
    decode [0x7E, 0x01, 0x85, 0x84, 0x7E] = .ok .rr1 ∧
    decode [0x7E, 0x01, 0x01, 0x00, 0x7E] = .ok .rej0 ∧
    decode [0x7E, 0x01, 0x81, 0x80, 0x7E] = .ok .rej1 := by decide

/-- Frames of 95_test_vectors.md section 2.1. -/
theorem test_decode_information_frames :
    decode [0x7E, 0x03, 0x00, 0x03, 0x00, 0x7E] = .ok (.i0 []) ∧
    decode [0x7E, 0x03, 0x00, 0x03, 0x7D, 0x5E, 0x7D, 0x5E, 0x7E] = .ok (.i0 [0x7E]) ∧
    decode [0x7E, 0x03, 0x40, 0x43, 0x7D, 0x5E, 0x7D, 0x5D, 0x03, 0x7E] = .ok (.i1 [0x7E, 0x7D]) := by decide

/-- The pairs of R88, and the generic rows by their index (log entry 2). -/
theorem test_decode_pairs_and_generic_rows :
    decode [0x7D, 0x5E] = .ok .escFlag ∧ decode [0x7D, 0x5D] = .ok .escEsc ∧
    decode [267, 1] = .ok (.rrS 1) ∧ decode [268, 0] = .ok (.rejS 0) ∧
    decode [269, 1, 0x41] = .ok (.iS 1 [0x41]) := by decide

/-- Command codes of R101, port fields of R12. -/
theorem test_decode_commands :
    decode [0] = .ok .nop ∧ decode [1, 0, 3, 7] = .ok (.openCmd .tx 3 7) ∧ decode [1, 1, 0, 0] = .ok (.openCmd .rx 0 0) ∧
    decode [2, 3, 0x41, 0x42, 0x43] = .ok (.sendCmd [0x41, 0x42, 0x43]) ∧ decode [2, 0] = .ok (.sendCmd []) ∧
    decode [3] = .ok .receiveCmd ∧ decode [4] = .ok .closeCmd ∧ decode [5] = .ok .reserved5 ∧
    decode [6] = .ok .reserved6 ∧ decode [7] = .ok .reserved7 := by decide

/-- Input events by their row's index in the table (log entry 2). -/
theorem test_decode_events :
    decode [280, 0x7E] = .ok (.rxbyteSup 0x7E) ∧ decode [281, 0x41] = .ok (.rxbyteCap 0x41) ∧
    decode [282] = .ok .tick ∧ decode [283] = .ok .expire ∧ decode [284] = .ok .resetInput := by decide

/-- FUNCTION rows by their row's index in the table (log entry 2). -/
theorem test_decode_functions :
    decode [285, 0x01, 0x85] = .ok (.bcc1 0x01 0x85) ∧ decode [286, 0x41, 0x42] = .ok (.bcc2 [0x41, 0x42]) ∧
    decode [287, 0x7E] = .ok (.stuff [0x7E]) ∧ decode [288, 0x7D, 0x5E] = .ok (.destuff [0x7D, 0x5E]) ∧
    decode [289, 0x03, 0x0B] = .ok (.encSup 0x03 0x0B) ∧ decode [290, 1, 0x7D] = .ok (.encInfo 1 [0x7D]) ∧
    decode [291, 1, 0x03, 0x00] = .ok (.decInfo [0x03, 0x00] true) ∧ decode [292, 0x55] = .ok (.recStep 0x55) ∧
    decode [293, 0x55] = .ok (.capStep 0x55) := by decide

theorem test_decode_procedures :
    decode [294, 1, 0x7E, 0x10, 0x7E] = .ok (.startTimed .sendWaitAck [0x7E, 0x10, 0x7E]) ∧
    decode [295] = .ok .loopCheck ∧ decode [296] = .ok .cancelTimer ∧ decode [297, 2] = .ok (.fail .connectionTimeout) ∧
    decode [298, 0x7E, 0x7E] = .ok (.writeFrame [0x7E, 0x7E]) ∧ decode [299, 0x85] = .ok (.handleAccept 0x85) ∧
    decode [300, 0, 0x55] = .ok (.processBody [0x55] false) := by decide

/-- ACCEPT and BODY rows by their row's index in the table (log entry 2). -/
theorem test_decode_accepts :
    decode [301] = .ok .acceptUaOpenTx ∧ decode [302] = .ok .acceptSetOpenRx ∧ decode [303] = .ok .acceptDiscCloseTx ∧
    decode [304] = .ok .acceptDiscCloseRx ∧ decode [305] = .ok .acceptUaCloseRx ∧ decode [306] = .ok .acceptRrNext ∧
    decode [307, 1] = .ok (.acceptRej 1) ∧ decode [308] = .ok .acceptRrSame ∧
    decode [309, 0, 0x55] = .ok (.bodyHeaderBad [0x55] false) ∧
    decode [310, 0x03, 0x40, 0x43, 0x41, 0x7D] = .ok (.bodyEscapeBad [0x03, 0x40, 0x43, 0x41, 0x7D]) ∧
    decode [311, 0x03, 0x00, 0x03] = .ok (.bodyChecksumBad [0x03, 0x00, 0x03]) ∧
    decode [312, 0x03, 0x00, 0x03, 0x00] = .ok (.bodyDuplicate [0x03, 0x00, 0x03, 0x00]) ∧
    decode [313, 0x03, 0x00, 0x03, 0x00] = .ok (.bodyNew [0x03, 0x00, 0x03, 0x00]) := by decide

/-- What is refused: control 0x80 (conflict C1), a SET with the Receiver's address (R96), a lone escape (R88), a bad
check byte, a byte out of range, an index that is no row. -/
theorem test_decode_refuses :
    decode [0x7E, 0x03, 0x80, 0x83, 0x00, 0x7E] = .error .unknownFrame ∧
    decode [0x7E, 0x01, 0x03, 0x02, 0x7E] = .error .unknownFrame ∧
    decode [0x7D, 0x41] = .error .unknownPair ∧
    decode [0x7E, 0x03, 0x00, 0x03, 0x41, 0x42, 0x7E] = .error .unknownFrame ∧
    decode [280, 256] = .error .badOperand ∧ decode [8] = .error .unknownSelector ∧
    decode [314] = .error .unknownSelector ∧ decode [] = .error .empty ∧
    decode [297, 0] = .error .illFormed := by decide

/-- Headers and codes as the table numbers them (R97, R101). -/
theorem test_table_words :
    decodeTableWord 24 0x030300 = some .set ∧ decodeTableWord 24 0x018180 = some .rej1 ∧
    decodeTableWord 24 0x030003 = some (.i0 []) ∧ decodeTableWord 8 1 = some (.openCmd .tx 0 0) ∧
    decodeTableWord 8 2 = some (.sendCmd []) ∧ decodeTableWord 8 7 = some .reserved7 ∧
    decodeTableWord 24 0x038083 = none := by decide

/-! ## Small states -/

/-- P_IDLE in an open session of the Transmitter. -/
def openTx : State := { State.reset with sess := .opened, role := .tx, ntries := 3, timeout := 3 }
/-- P_IDLE in an open session of the Receiver. -/
def openRx : State := { openTx with role := .rx }
/-- P_IDLE after a fatal error. -/
def failed : State := { openTx with sess := .failed, err := .connectionTimeout }
/-- Waiting for UA with the timer running. -/
def waitUa : State :=
  { openTx with sess := .opening, phase := .openTxWaitUa, timerRunning := true, txf := [0x7E, 0x03, 0x03, 0x00, 0x7E] }
/-- Waiting for SET. -/
def waitSet : State := { openRx with sess := .opening, phase := .openRxWaitSet }
/-- Waiting for the acknowledgement of `I0[10]`. -/
def waitAck : State :=
  { openTx with
    phase := .sendWaitAck, timerRunning := true, txf := [0x7E, 0x03, 0x00, 0x03, 0x10, 0x10, 0x7E] }
/-- Capturing. -/
def capturing : State := { openRx with phase := .recvCapture }
/-- The Transmitter waiting for DISC. -/
def waitDisc : State :=
  { openTx with
    sess := .closing, phase := .closeTxWaitDisc, timerRunning := true, txf := [0x7E, 0x03, 0x0B, 0x08, 0x7E] }
/-- The Receiver waiting for DISC. -/
def waitDiscRx : State := { openRx with sess := .closing, phase := .closeRxWaitDisc }
/-- The Receiver waiting for the final UA. -/
def waitFinalUa : State :=
  { openRx with
    sess := .closing, phase := .closeRxWaitUa, timerRunning := true, txf := [0x7E, 0x01, 0x0B, 0x0A, 0x7E] }

/-- A value of the next state, if there is one. -/
def after {α : Type} (r : Res) (f : State → α) : Option α :=
  match r with
  | .next s => some (f s)
  | .fault _ => none
  | .refused _ => none

/-! ## One step each -/

/-- R191 example. -/
theorem test_open_tx :
    after (exec (.openCmd .tx 3 3) State.reset) (fun s => (s.sess, s.phase, s.out)) =
      some (.opening, .openTxWaitUa, [.tx [0x7E, 0x03, 0x03, 0x00, 0x7E], .tmrStart 3]) := by decide

/-- R182: nothing is written. -/
theorem test_open_tx_without_tries :
    after (exec (.openCmd .tx 0 3) State.reset) (fun s => (s.sess, s.err, s.out)) =
      some (.failed, .connectionTimeout, [.done .connectionTimeout none]) := by decide

/-- R220 example. -/
theorem test_send :
    after (exec (.sendCmd [0x41, 0x42, 0x43]) openTx) State.out =
      some [.tx [0x7E, 0x03, 0x00, 0x03, 0x41, 0x42, 0x43, 0x40, 0x7E], .tmrStart 3] := by decide

/-- R256. -/
theorem test_send_too_long :
    after (exec (.sendCmd [0x41, 0x42]) { openTx with params := ⟨some 1, none⟩ }) (fun s => (s.sess, s.out)) =
      some (.opened, [.done .payloadTooLong none]) := by decide

/-- R269: RECEIVE by the Transmitter. -/
theorem test_receive_illegal : after (exec .receiveCmd openTx) State.out = some [.done .illegalCommand none] := by decide

/-- R196 example. -/
theorem test_close_tx :
    after (exec .closeCmd openTx) State.out = some [.tx [0x7E, 0x03, 0x0B, 0x08, 0x7E], .tmrStart 3] := by decide

/-- R196, Receiver branch: nothing is written. -/
theorem test_close_rx :
    after (exec .closeCmd openRx) (fun s => (s.phase, s.out)) = some (.closeRxWaitDisc, []) := by decide

/-- R193 example. -/
theorem test_ua_opens :
    after (exec .uaRx waitUa) (fun s => (s.sess, s.phase, s.out)) =
      some (.opened, .idle, [.tmrCancel, .done .ok none]) := by decide

/-- 95 section 2.2: a UA with the Transmitter's address is not accepted and leaves R_FLAG. -/
theorem test_ua_of_the_wrong_origin :
    after (exec .uaTx waitUa) (fun s => (s.recState, s.phase, s.out)) = some (.flag, .openTxWaitUa, []) := by decide

/-- R195 example. -/
theorem test_set_opens :
    after (exec .set waitSet) (fun s => (s.sess, s.out)) =
      some (.opened, [.tx [0x7E, 0x01, 0x07, 0x06, 0x7E], .done .ok none]) := by decide

/-- R198 example. -/
theorem test_disc_closes_tx :
    after (exec .discRx waitDisc) (fun s => (s.sess, s.out)) =
      some (.closed, [.tmrCancel, .tx [0x7E, 0x03, 0x07, 0x04, 0x7E], .chanClose, .done .ok none]) := by decide

/-- R200 example. -/
theorem test_disc_answered_by_rx :
    after (exec .discTx waitDiscRx) (fun s => (s.phase, s.out)) =
      some (.closeRxWaitUa, [.tx [0x7E, 0x01, 0x0B, 0x0A, 0x7E], .tmrStart 3]) := by decide

/-- R201 example. -/
theorem test_final_ua :
    after (exec .uaTx waitFinalUa) (fun s => (s.sess, s.out)) =
      some (.closed, [.tmrCancel, .chanClose, .done .ok none]) := by decide

/-- R221 example. -/
theorem test_rr1_acknowledges :
    after (exec .rr1 waitAck) (fun s => (s.ns, s.phase, s.out)) =
      some (1, .idle, [.tmrCancel, .done .ok none]) := by decide

/-- R223 example. -/
theorem test_rr1_is_ignored_with_ns_1 :
    after (exec .rr1 { waitAck with ns := 1 }) (fun s => (s.ns, s.timerRunning, s.cntRxFrames, s.out)) =
      some (1, true, 1, []) := by decide

/-- R222 example. -/
theorem test_rej1_retransmits :
    after (exec .rej1 { waitAck with ns := 1 }) (fun s => (s.retryCnt, s.cntRetx, s.out)) =
      some (1, 1, [.tmrCancel, .tx [0x7E, 0x03, 0x00, 0x03, 0x10, 0x10, 0x7E], .tmrStart 3]) := by decide

/-- R222 corner case: with `ntries = 1` a single REJ fails the SEND. -/
theorem test_rej_fails_at_the_bound :
    after (exec .rej0 { waitAck with ntries := 1 }) (fun s => (s.sess, s.err, s.out)) =
      some (.failed, .maxRetransmissionsExceeded, [.tmrCancel, .done .maxRetransmissionsExceeded none]) := by decide

/-- R173 example. -/
theorem test_expire :
    after (exec .expire waitAck) (fun s => (s.retryCnt, s.timerRunning, s.timedOut, s.out)) =
      some (1, false, true, []) := by decide

/-- R172 example. -/
theorem test_tick_retransmits :
    after (exec .tick { waitUa with retryCnt := 1, timerRunning := false }) (fun s => (s.timerRunning, s.cntRetx, s.out)) =
      some (true, 1, [.tx [0x7E, 0x03, 0x03, 0x00, 0x7E], .tmrStart 3]) := by decide

/-- R172 example, at the bound. -/
theorem test_loop_check_fails :
    after (exec .loopCheck { waitUa with retryCnt := 3, timerRunning := false }) (fun s => (s.sess, s.err, s.out)) =
      some (.failed, .connectionTimeout, [.done .connectionTimeout none]) := by decide

/-- R172: run again after it failed, it does nothing. -/
theorem test_loop_check_after_failing :
    after (exec .loopCheck failed) (fun s => (s.sess, s.err, s.out)) = some (.failed, .connectionTimeout, []) := by decide

/-- R226 example. -/
theorem test_closing_flag_delivers :
    after (exec (.rxbyteCap 0x7E) { capturing with capState := .body, capBuf := [0x03, 0x00, 0x03, 0x41, 0x42, 0x43, 0x40] })
        (fun s => (s.nr, s.lrfn, s.phase, s.out)) =
      some (1, 0, .idle, [.tx [0x7E, 0x01, 0x85, 0x84, 0x7E], .done .ok (some [0x41, 0x42, 0x43])]) := by decide

/-- R231 example. -/
theorem test_duplicate :
    after (exec (.i0 [0x41, 0x42, 0x43]) { capturing with nr := 1, lrfn := 0 }) (fun s => (s.nr, s.phase, s.out)) =
      some (1, .recvCapture, [.ev .duplicateFrame, .tx [0x7E, 0x01, 0x85, 0x84, 0x7E]]) := by decide

/-- R235: a SET inside RECEIVE is rejected. -/
theorem test_set_in_receive :
    after (exec .set capturing) (fun s => (s.phase, s.out)) =
      some (.recvCapture, [.ev .frameRejected, .tx [0x7E, 0x01, 0x01, 0x00, 0x7E]]) := by decide

/-- R229 and R230 examples. -/
theorem test_bad_bodies :
    after (exec (.bodyEscapeBad [0x03, 0x40, 0x43, 0x41, 0x7D]) { capturing with nr := 1, lrfn := 0 }) State.out =
      some [.ev .malformedEscape, .tx [0x7E, 0x01, 0x81, 0x80, 0x7E]] ∧
    after (exec (.bodyChecksumBad [0x03, 0x40, 0x43, 0x7D, 0x5E, 0x7D, 0x5D, 0x02]) { capturing with nr := 1, lrfn := 0 })
        State.out =
      some [.ev .checksumMismatch, .tx [0x7E, 0x01, 0x81, 0x80, 0x7E]] := by decide

/-- R153, R154: at BODY_CAP the byte is dropped and the overflow bit set. -/
theorem test_overflow :
    after (exec (.rxbyteCap 0x46) { capturing with params := ⟨some 0, none⟩, capState := .body, capBuf := [1, 2, 3, 4, 5] })
        (fun s => (s.capBuf, s.capOvf)) = some ([1, 2, 3, 4, 5], true) ∧
    after (exec (.rxbyteCap 0x45) { capturing with params := ⟨some 0, none⟩, capState := .body, capBuf := [1, 2, 3, 4] })
        (fun s => (s.capBuf, s.capOvf)) = some ([1, 2, 3, 4, 0x45], false) := by decide

/-- 95 section 2.1: DESTUFF's corner cases and DEC_INFO's results. -/
theorem test_codec_vectors :
    destuff [0x7D, 0x7D, 0x5E] = some [0x7D, 0x7E] ∧ destuff [0x7D, 0x5E, 0x7D] = none ∧
    destuff [0x7D, 0x5D, 0x5E] = some [0x7D, 0x5E] ∧
    encInfo 1 [0x00, 0x7D] = [0x7E, 0x03, 0x40, 0x43, 0x00, 0x7D, 0x5D, 0x7D, 0x5D, 0x7E] ∧
    decInfo [0x03, 0x00, 0x03, 0x7D, 0x41, 0x3C] false = .good 0 [0x7D, 0x41] ∧
    decInfo [0x03, 0x00, 0x02, 0x7D] false = .headerBad ∧ decInfo [0x03, 0x80, 0x83, 0x00] false = .headerBad := by decide

/-- R309: a bounded counter wraps. -/
theorem test_counter_wraps :
    after (exec (.writeFrame [0x7E, 0x7E]) { openTx with params := ⟨none, some 2⟩, cntTxFrames := 3 }) State.cntTxFrames =
      some 0 := by decide

/-- R9, R63: in P_IDLE bytes wait; with a backlog the oldest byte is read. -/
theorem test_bytes_wait :
    after (exec (.rxbyteSup 0x7E) openTx) State.rxq = some [0x7E] ∧
    after (exec (.rxbyteSup 0x55) { waitUa with rxq := [0x7E] }) (fun s => (s.recState, s.rxq)) =
      some (.flag, [0x55]) := by decide

/-! ## Witnesses: states and operands that meet the hypotheses of the statements, clause by clause -/

theorem witness_StuffFollowsItsEquations :
    stuff [0x7E] = [] ++ 0x7D :: [0x5E] ∧ stuff [0x41, 0x7D] = [0x41] ++ 0x7D :: [0x5D] := by decide

theorem witness_DestuffFollowsItsEquations :
    ((0x5F : Byte) ≠ 0x5E ∧ (0x5F : Byte) ≠ 0x5D) ∧ ((0x5C : Byte) ≠ 0x5E ∧ (0x5C : Byte) ≠ 0x5D) ∧ (0x7C : Byte) ≠ 0x7D ∧
    destuff [0x7D, 0x5E] = some [0x7E] := by decide

theorem witness_DecInfoChecksInOrder :
    ([0x03, 0x00] : Bytes).length < 3 ∧ ((0x01 : Byte) ≠ 0x03) ∧ ((0x80 : Byte) ≠ 0x00 ∧ (0x80 : Byte) ≠ 0x40) ∧
    ((0x02 : Byte) ≠ 0x03 ^^^ 0x00) ∧ destuff [0x7D] = none ∧ destuff [] = some [] ∧
    destuff [0x00] = some ([] ++ [0x00]) := by decide

theorem witness_InformationFrameRoundTrips : decInfo [0x03, 0x40, 0x43, 0x00] false = .good 1 [] := by decide

theorem witness_CaptureTransitionTable :
    (0x7D : Byte) ≠ 0x7E ∧ ([1, 2, 3, 4] : Bytes).length < 5 ∧ 5 ≤ ([1, 2, 3, 4, 5] : Bytes).length := by decide

theorem witness_ScannerRowsComplete :
    expectation waitAck.phase = some ⟨0x01, [0x05, 0x85, 0x01, 0x81]⟩ ∧ openTx.phase = .idle ∧
    capturing.phase = .recvCapture := by decide

theorem witness_NoiseThenFrameYieldsOneResult :
    (0x7E : Byte) ∉ ([0x55] : Bytes) ∧ expectation .openTxWaitUa = some ⟨0x01, [0x07]⟩ ∧ (0x07 : Byte) ∈ ([0x07] : Bytes) ∧
    (∀ m, (⟨some 1, none⟩ : Params).maxPayload = some m → ([0x7E] : Bytes).length ≤ m) := by
  refine ⟨by decide, rfl, by decide, ?_⟩
  intro m h
  cases h
  decide

theorem witness_RecognizerAcceptsExactlyItsFrames :
    expectation .sendWaitAck = some ⟨0x01, [0x05, 0x85, 0x01, 0x81]⟩ ∧
    (0x85 : Byte) ∈ ([0x05, 0x85, 0x01, 0x81] : Bytes) := by decide

theorem witness_ExpireEndsTheRunningAttempt : waitAck.timerRunning = true ∧ openTx.timerRunning = false := by decide

theorem witness_TickRunsTheBoundTest :
    (isTimed waitAck.phase = true ∧ waitAck.retryCnt < waitAck.ntries ∧ waitAck.timerRunning = true) ∧
    (isTimed waitUa.phase = true ∧ ({ waitUa with retryCnt := 2, timerRunning := false } : State).retryCnt < waitUa.ntries) ∧
    waitSet.phase = .openRxWaitSet ∧ capturing.phase = .recvCapture ∧ waitDiscRx.phase = .closeRxWaitDisc := by decide

theorem witness_LoopCheckTestsTheBoundThenWrites :
    timeoutError waitAck.phase = some .maxRetransmissionsExceeded ∧
    ({ waitAck with retryCnt := 3 } : State).ntries ≤ ({ waitAck with retryCnt := 3 } : State).retryCnt ∧
    ({ waitAck with retryCnt := 2 } : State).retryCnt < waitAck.ntries ∧ waitAck.timerRunning = true ∧
    exec .loopCheck waitAck = .next waitAck :=
  ⟨by decide, by decide, by decide, by decide, rfl⟩

theorem witness_StartTimedLatchesAndWrites : 0 < openTx.ntries ∧ State.reset.ntries = 0 := by decide

theorem witness_CancelFailAndWriteComplete : waitAck.timerRunning = true ∧ openTx.timerRunning = false ∧
    openTx.params.cntW = none ∧ ({ openTx with params := ⟨none, some 2⟩ } : State).params.cntW = some 2 := by decide

theorem witness_FrameIsWrittenExactlyNtriesTimes :
    let rs : List (Option Byte) := [none, some 0x7E, some 0x01]
    0 < openTx.ntries ∧ expectation (timedPhase .openTxWaitUa) = some ⟨0x01, [0x07]⟩ ∧
    (recFeed ⟨0x01, [0x07]⟩ .idle 0x00 (bytesRead rs)).2.2 = [] ∧ openTx.rxq = [] ∧ rs.length = openTx.ntries ∧
    (rs.drop 1).length < openTx.ntries ∧ (recFeed ⟨0x01, [0x07]⟩ .idle 0x00 (bytesRead (rs.drop 1))).2.2 = [] ∧
    openTx.params.cntW = none := by decide

/-- A state of each timed wait after the last expiry, with the reply read up to its closing flag. -/
def lastByte (s : State) (c : Byte) : State :=
  { s with timerRunning := false, timedOut := true, retryCnt := 3, recState := .bcc, recCtrl := c }

theorem witness_ReplyBeatsExpiry :
    (lastByte waitUa 0x07).rxq = [] ∧ (lastByte waitUa 0x07).recState = .bcc ∧ (lastByte waitUa 0x07).timerRunning = false ∧
    (lastByte waitUa 0x07).phase = .openTxWaitUa ∧ (lastByte waitAck 0x85).recCtrl = cRR (~~~ waitAck.ns) ∧
    (lastByte waitFinalUa 0x07).phase = .closeRxWaitUa ∧ (lastByte waitDisc 0x0B).phase = .closeTxWaitDisc := by decide

theorem witness_OpenStartsASession :
    State.reset.phase = .idle ∧ State.reset.sess = .closed ∧ 0 < 1 ∧ failed.phase = .idle ∧ failed.sess ≠ .closed := by decide

theorem witness_CloseStartsTheHandshake :
    openTx.phase = .idle ∧ openTx.sess = .opened ∧ openTx.role = .tx ∧ 0 < openTx.ntries ∧
    ({ openTx with ntries := 0 } : State).ntries = 0 ∧ openRx.role = .rx ∧ State.reset.sess ≠ .opened := by decide

/-- A Transmitter with MAX_PAYLOAD = 1. -/
def openTx1 : State := { openTx with params := ⟨some 1, none⟩ }

theorem witness_SendStartsTheExchange :
    openTx1.phase = .idle ∧ openTx1.sess = .opened ∧ openTx1.role = .tx ∧ 0 < openTx1.ntries ∧
    (∀ m, openTx1.params.maxPayload = some m → ([0x41] : Bytes).length ≤ m) ∧
    ({ openTx1 with ntries := 0 } : State).ntries = 0 ∧
    (openTx1.params.maxPayload = some 1 ∧ 1 < ([0x41, 0x42] : Bytes).length) ∧ State.reset.sess ≠ .opened ∧
    openRx.role = .rx := by
  refine ⟨rfl, rfl, rfl, by decide, ?_, by decide⟩
  intro m h
  cases h
  decide

theorem witness_ReceiveStartsTheCapture :
    openRx.phase = .idle ∧ openRx.sess = .opened ∧ openRx.role = .rx ∧ openTx.phase = .idle ∧ openTx.role = .tx ∧
    State.reset.sess ≠ .opened := by decide

theorem witness_NopAndReservedCodes : State.reset.phase = .idle := by decide

theorem witness_IllegalCommandsChangeNothing :
    isCommand .nop = true ∧ isCommand .closeCmd = true ∧ State.reset.phase = .idle ∧ State.reset.sess ≠ .opened ∧
    isCommand (.openCmd .tx 1 1) = true ∧ openTx.phase = .idle ∧ openTx.sess ≠ .closed ∧
    isCommand (.sendCmd []) = true ∧ ¬ (openRx.sess = .opened ∧ openRx.role = .tx) ∧
    isCommand .receiveCmd = true ∧ ¬ (openTx.sess = .opened ∧ openTx.role = .rx) ∧ isCommand .reserved5 = true := by decide

theorem witness_RowsStopWhereTheSpecGivesNoStep :
    isCommand .nop = true ∧ waitAck.phase ≠ .idle ∧ isTimed openTx.phase = false ∧ openTx.phase ≠ .openTxWaitUa ∧
    openTx.phase ≠ .openRxWaitSet ∧ openTx.phase ≠ .closeTxWaitDisc ∧ openTx.phase ≠ .closeRxWaitDisc ∧
    openTx.phase ≠ .closeRxWaitUa ∧ openTx.phase ≠ .sendWaitAck ∧ openTx.phase ≠ .recvCapture ∧
    capturing.phase = .recvCapture ∧ decInfo [0x03, 0x00, 0x03] false ≠ .headerBad ∧
    decInfo [0x55] false ≠ .escapeBad ∧ decInfo [0x55] false ≠ .checksumBad := by decide

theorem witness_RowsStopWhereTheSpecGivesNoStep_sequence :
    (∀ P, decInfo [0x03, 0x00, 0x03, 0x00] false ≠ .good capturing.lrfn P) ∧
    (∀ P, decInfo [0x03, 0x40, 0x43, 0x00] false ≠ .good (~~~ capturing.lrfn) P) := by
  have h0 : decInfo [0x03, 0x00, 0x03, 0x00] false = .good 0 [] := by decide
  have h1 : decInfo [0x03, 0x40, 0x43, 0x00] false = .good 1 [] := by decide
  constructor <;> intro P h
  · rw [h0] at h; cases h
  · rw [h1] at h; cases h

theorem witness_HandshakeAcceptsEndTheirWait :
    waitUa.phase = .openTxWaitUa ∧ waitSet.phase = .openRxWaitSet ∧ waitDisc.phase = .closeTxWaitDisc ∧
    waitFinalUa.phase = .closeRxWaitUa := by decide

theorem witness_ReceiverAnswersDisc :
    waitDiscRx.phase = .closeRxWaitDisc ∧ 0 < ({ waitDiscRx with ntries := 1 } : State).ntries ∧
    ({ waitDiscRx with ntries := 0 } : State).ntries = 0 := by decide

theorem witness_AcknowledgementsInSend :
    let s := { waitAck with retryCnt := 2, recState := .bcc, recCtrl := 0x05 }
    s.phase = .sendWaitAck ∧ s.rxq = [] ∧ s.recState = .bcc ∧ s.recCtrl = cRR s.ns ∧ s.timerRunning = true ∧
    s.retryCnt < s.ntries := by decide

theorem witness_RejectionsInSend :
    waitAck.phase = .sendWaitAck ∧ waitAck.timerRunning = true ∧
    ({ waitAck with retryCnt := 1 } : State).retryCnt + 1 < waitAck.ntries ∧
    ({ waitAck with retryCnt := 2 } : State).retryCnt + 1 = waitAck.ntries ∧
    ({ waitAck with timerRunning := false, retryCnt := 2 } : State).timerRunning = false ∧
    ({ waitAck with timerRunning := false, retryCnt := 2 } : State).retryCnt < waitAck.ntries ∧
    waitAck.ntries ≤ ({ waitAck with timerRunning := false, retryCnt := 3 } : State).retryCnt := by decide

theorem witness_HandleAcceptDispatchesOnPhase :
    waitUa.phase = .openTxWaitUa ∧ waitSet.phase = .openRxWaitSet ∧ waitDisc.phase = .closeTxWaitDisc ∧
    waitDiscRx.phase = .closeRxWaitDisc ∧ waitFinalUa.phase = .closeRxWaitUa ∧ waitAck.phase = .sendWaitAck ∧
    waitAck.ns = 0 ∧ ({ waitAck with ns := 1 } : State).ns = 1 ∧ (0x07 : Byte) ∉ ([0x05, 0x85, 0x01, 0x81] : Bytes) ∧
    expectation openTx.phase = none := by decide

theorem witness_SupervisionByteRunsTheRecognizer :
    expectation waitUa.phase = some ⟨0x01, [0x07]⟩ ∧ waitUa.rxq = [] ∧
    (recNext ⟨0x01, [0x07]⟩ waitUa.recState waitUa.recCtrl 0x7E).accept = none ∧ waitUa.retryCnt < waitUa.ntries ∧
    waitUa.timerRunning = true ∧ (recNext ⟨0x01, [0x07]⟩ .bcc 0x07 0x7E).accept = some 0x07 := by decide

theorem witness_CaptureByteRunsTheCapture :
    capturing.phase = .recvCapture ∧ capturing.rxq = [] ∧ capturing.timerRunning = false ∧
    (capNext (bodyCap capturing.params) capturing.capState capturing.capBuf capturing.capOvf 0x7E).body = none ∧
    (capNext none .body [0x55] false 0x7E).body = some ([0x55], false) := by decide

theorem witness_ProcessBodyAnswersEveryBody :
    decInfo [0x03, 0x00] false = .headerBad ∧ decInfo [0x03, 0x00, 0x03, 0x00] true = .headerBad ∧
    decInfo [0x03, 0x00, 0x03, 0x7D] false = .escapeBad ∧ decInfo [0x03, 0x00, 0x03] false = .checksumBad ∧
    decInfo [0x03, 0x40, 0x43, 0x00] false = .good 1 [] ∧ (1 : Bit) = capturing.lrfn ∧
    decInfo [0x03, 0x00, 0x03, 0x00] false = .good 0 [] ∧ (0 : Bit) ≠ capturing.lrfn := by decide

theorem witness_BodyRowsAnswerTheirBody :
    capturing.phase = .recvCapture ∧ decInfo [0x03, 0x00] false = .headerBad ∧
    decInfo [0x03, 0x00, 0x03, 0x7D] false = .escapeBad ∧ decInfo [0x03, 0x00, 0x03] false = .checksumBad ∧
    decInfo [0x03, 0x40, 0x43, 0x00] false = .good 1 [] ∧ (1 : Bit) = capturing.lrfn ∧
    decInfo [0x03, 0x00, 0x03, 0x00] false = .good 0 [] ∧ (0 : Bit) ≠ capturing.lrfn := by decide

theorem witness_BytesAreTakenOldestFirst :
    openTx.phase = .idle ∧ waitUa.phase ≠ .idle ∧ ({ waitUa with rxq := [0x7E] } : State).rxq = 0x7E :: [] ∧
    isArrival .set = true ∧ isArrival .escEsc = true ∧ isArrival (.iS 0 []) = true := by decide

/-- The waiting states are coherent: their recognizer is fresh. -/
theorem coherent_fresh {s : State} (hr : s.recState = .idle)
    (ht : (s.phase = .openTxWaitUa ∨ s.phase = .sendWaitAck ∨ s.phase = .closeTxWaitDisc) → s.role = .tx)
    (hx : (s.phase = .openRxWaitSet ∨ s.phase = .recvCapture ∨ s.phase = .closeRxWaitDisc ∨ s.phase = .closeRxWaitUa) →
      s.role = .rx)
    (he : (s.sess = .failed → fatal s.err = true) ∧ (s.sess ≠ .failed → s.err = .ok))
    (hf : within s.txf.length (txfCap s.params) = true) (hb : within s.capBuf.length (bodyCap s.params) = true) :
    Coherent s :=
  { rec_ctrl := by
      intro _ _ h
      rw [hr] at h
      rcases h with h | h <;> cases h
    role_tx := ht
    role_rx := hx
    err_failed := he
    txf_cap := hf
    buf_cap := hb }

theorem witness_HandshakeFramesCompleteTheirWait :
    (Coherent waitSet ∧ waitSet.rxq = [] ∧ waitSet.recState ≠ .bcc ∧ waitSet.phase = .openRxWaitSet) ∧
    (Coherent waitUa ∧ waitUa.rxq = [] ∧ waitUa.recState ≠ .bcc ∧ waitUa.phase = .openTxWaitUa ∧
      waitUa.timerRunning = true ∧ waitUa.retryCnt < waitUa.ntries) ∧
    (Coherent waitDisc ∧ waitDisc.phase = .closeTxWaitDisc ∧ waitDisc.timerRunning = true) ∧
    (Coherent waitDiscRx ∧ waitDiscRx.phase = .closeRxWaitDisc ∧ 0 < waitDiscRx.ntries) ∧
    (Coherent waitFinalUa ∧ waitFinalUa.phase = .closeRxWaitUa ∧ waitFinalUa.timerRunning = true) := by
  refine ⟨⟨coherent_fresh rfl ?_ ?_ ?_ ?_ ?_, ?_⟩, ⟨coherent_fresh rfl ?_ ?_ ?_ ?_ ?_, ?_⟩,
    ⟨coherent_fresh rfl ?_ ?_ ?_ ?_ ?_, ?_⟩, ⟨coherent_fresh rfl ?_ ?_ ?_ ?_ ?_, ?_⟩,
    ⟨coherent_fresh rfl ?_ ?_ ?_ ?_ ?_, ?_⟩⟩ <;> decide

theorem witness_RrFramesAnswerASend :
    Coherent waitAck ∧ waitAck.rxq = [] ∧ waitAck.recState ≠ .bcc ∧ waitAck.phase = .sendWaitAck ∧
    waitAck.timerRunning = true ∧ waitAck.retryCnt < waitAck.ntries ∧ (1 : Bit) ≠ waitAck.ns ∧ (0 : Bit) = waitAck.ns := by
  refine ⟨coherent_fresh rfl ?_ ?_ ?_ ?_ ?_, ?_⟩ <;> decide

theorem witness_RejFramesRetransmit :
    (Coherent { waitAck with retryCnt := 1 } ∧ ({ waitAck with retryCnt := 1 } : State).retryCnt + 1 < waitAck.ntries) ∧
    (Coherent { waitAck with retryCnt := 2 } ∧ ({ waitAck with retryCnt := 2 } : State).retryCnt < waitAck.ntries ∧
      ({ waitAck with retryCnt := 2 } : State).retryCnt + 1 = waitAck.ntries) ∧ waitAck.timerRunning = true := by
  refine ⟨⟨coherent_fresh rfl ?_ ?_ ?_ ?_ ?_, ?_⟩, ⟨coherent_fresh rfl ?_ ?_ ?_ ?_ ?_, ?_⟩, ?_⟩ <;> decide

/-- A Receiver with MAX_PAYLOAD = 1. -/
def capturing1 : State := { capturing with params := ⟨some 1, none⟩ }

theorem witness_InformationFramesAreReceived :
    capturing1.rxq = [] ∧ capturing1.phase = .recvCapture ∧ capturing1.capState = .idle ∧
    (({ capturing1 with capState := .flag } : State).capState = .flag ∧ capturing1.capOvf = false) ∧
    (∀ m, capturing1.params.maxPayload = some m → ([0x7E] : Bytes).length ≤ m) ∧ (0 : Bit) ≠ capturing1.lrfn ∧
    (1 : Bit) = capturing1.lrfn := by
  refine ⟨rfl, rfl, rfl, ⟨rfl, rfl⟩, ?_, by decide⟩
  intro m h
  cases h
  decide

theorem witness_StuffingPairsStandForTheirByte :
    capturing1.rxq = [] ∧ capturing1.phase = .recvCapture ∧
    ({ capturing1 with capState := .body, capBuf := [1, 2, 3, 4, 5] } : State).capState = .body ∧
    (∀ m, capturing1.params.maxPayload = some m → ([1, 2, 3, 4, 5] : Bytes).length + 2 ≤ 2 * m + 5) ∧
    destuff [0x41] = some [0x41] := by
  refine ⟨rfl, rfl, rfl, ?_, by decide⟩
  intro m h
  cases h
  decide

theorem witness_SameFrameIsDeliveredOnce :
    capturing1.rxq = [] ∧ capturing1.phase = .recvCapture ∧ capturing1.capState = .idle ∧ capturing1.sess = .opened ∧
    capturing1.role = .rx ∧ (0 : Bit) ≠ capturing1.lrfn ∧
    (∀ m, capturing1.params.maxPayload = some m → ([0x41] : Bytes).length ≤ m) := by
  refine ⟨rfl, rfl, rfl, rfl, rfl, by decide, ?_⟩
  intro m h
  cases h
  decide

theorem witness_SendIsDeliveredAndAcknowledged :
    openTx1.phase = .idle ∧ openTx1.sess = .opened ∧ openTx1.role = .tx ∧ openTx1.rxq = [] ∧ 0 < openTx1.ntries ∧
    capturing1.phase = .recvCapture ∧ capturing1.capState = .idle ∧ capturing1.rxq = [] ∧ capturing1.nr = openTx1.ns ∧
    capturing1.lrfn = ~~~ capturing1.nr ∧ (∀ m, openTx1.params.maxPayload = some m → ([0x41] : Bytes).length ≤ m) ∧
    (∀ m, capturing1.params.maxPayload = some m → ([0x41] : Bytes).length ≤ m) := by
  refine ⟨rfl, rfl, rfl, rfl, by decide, rfl, rfl, rfl, rfl, by decide, ?_, ?_⟩ <;> intro m h <;> cases h <;> decide

/-- Good states exist besides reset: a wait for the acknowledgement, with a byte of the line pending. -/
def waitAckRx : State := { waitAck with inputs := [[280, 0x7E]] }

theorem inv_waitAck : Inv waitAckRx := by
  constructor <;> decide

theorem inv_failed : Inv failed := by
  constructor <;> decide

theorem good_waitAck : Good waitAckRx := by
  refine ⟨inv_waitAck, coherent_fresh rfl ?_ ?_ ?_ ?_ ?_, ?_⟩
  any_goals decide
  intro r hr i hi
  cases List.mem_singleton.1 hr
  rw [show decode [280, 0x7E] = .ok (.rxbyteSup 0x7E) by decide] at hi
  cases hi
  rfl

theorem witness_StepKeepsGoodStates :
    Good waitAckRx ∧ step waitAckRx = .next { waitAck with recState := .flag } := ⟨good_waitAck, rfl⟩

theorem witness_EveryEnabledInputHasAStep :
    Good waitAckRx ∧ isInput .rr1 = true ∧ (isCommand .rr1 = true → waitAckRx.phase = .idle) :=
  ⟨good_waitAck, by decide, by decide⟩

theorem witness_SessionMovesOnlyAsListed :
    Inv waitAckRx ∧ isInput .tick = true ∧ exec .tick waitAckRx = .next waitAckRx := ⟨inv_waitAck, by decide, rfl⟩

theorem witness_FailedIsLeftOnlyByReset :
    Inv failed ∧ failed.sess = .failed ∧ isInput .tick = true ∧ Instr.tick ≠ .resetInput ∧ exec .tick failed = .next failed :=
  ⟨inv_failed, by decide, by decide, by decide, rfl⟩

theorem witness_CountersAreNeverRead :
    SameButCounters waitAck { waitAck with cntTxFrames := 1 } ∧ exec .tick waitAck = .next waitAck ∧
    exec .nop waitAck = .fault .commandNotEnabled := ⟨rfl, rfl, rfl⟩

theorem witness_EveryEventIsAnswered :
    Coherent capturing ∧ isInput .set = true ∧ after (exec .set capturing) State.phase = some .recvCapture := by
  refine ⟨coherent_fresh rfl ?_ ?_ ?_ ?_ ?_, ?_⟩ <;> decide

theorem witness_DeviceErrorIsNeverProduced :
    (Instr.fail .disconnectTimeout).wf = true ∧ waitDisc.err ≠ .deviceError ∧
    after (exec (.fail .disconnectTimeout) waitDisc) State.err = some .disconnectTimeout := by decide

theorem witness_SequenceNumbersMoveOnlyOnSuccess :
    isInput .rr1 = true ∧ Instr.rr1 ≠ .resetInput ∧ after (exec .rr1 waitAck) State.ns = some 1 ∧ (1 : Bit) ≠ waitAck.ns ∧
    after (exec (.i0 []) capturing) State.nr = some 1 ∧ (1 : Bit) ≠ capturing.nr := by decide

theorem witness_ConfigurationIsFixedAtOpen :
    after (exec (.openCmd .rx 2 5) State.reset) (fun s => (s.role, s.ntries, s.timeout)) = some (.rx, 2, 5) ∧
    State.reset.ntries ≠ 2 := by decide

theorem witness_SendFrameIsLatched :
    waitAck.phase = .sendWaitAck ∧ isInput .rej0 = true ∧ Instr.rej0 ≠ .resetInput ∧
    after (exec .rej0 waitAck) State.phase = some .sendWaitAck := by decide

theorem witness_DecodeOfEncodeIsTheInstruction :
    (Instr.i0 [0x7E, 0x7D]).wf = true ∧ (Instr.startTimed .closeRxWaitUa [0x7E, 0x7E]).wf = true ∧
    (Instr.bodyNew [0x03, 0x40, 0x43, 0x00]).wf = true := by decide

theorem witness_EncodeOfDecodeIsTheRecord : decode [0x7E, 0x01, 0x85, 0x84, 0x7E] = .ok .rr1 := by decide

theorem witness_StepRunsTheDecodedInstruction :
    waitAckRx.inputs = [280, 0x7E] :: [] ∧ decode [280, 0x7E] = .ok (.rxbyteSup 0x7E) ∧
    decodeTableWord 24 0x018584 = some .rr1 ∧ decode [8] = .error .unknownSelector := by decide

theorem witness_StepWithoutARecordReadsTheChannel :
    State.reset.inputs = [] ∧ State.reset.phase = .idle ∧ waitAck.inputs = [] ∧ waitAck.phase ≠ .idle ∧ waitAck.rxq = [] ∧
    ({ waitAck with rxq := [0x7E] } : State).rxq = 0x7E :: [] := by decide

end Sys2Proof.Tests
end

namespace Sys2Proof.Machine

/-! ## RESET (R290) -/

/-- What a `RESET` does, in any state: it returns the registers to their reset values (R290). -/
theorem exec_resetInput (s : State) : exec .resetInput s = .next (resetRegisters s) := rfl

/-- The reset state already holds every reset value of R47. -/
theorem resetRegisters_reset : resetRegisters State.reset = State.reset := rfl

/-- The reset values of R47, register by register; the fields that are no registers keep their value (R291). -/
theorem resetRegisters_eq (s : State) :
    resetRegisters s =
      { s with
        sess := .closed, phase := .idle, role := .tx, ntries := 0, timeout := 0, ns := 0, nr := 0, lrfn := 1
        err := .ok, retryCnt := 0, timerRunning := false, timedOut := false, txf := [], recState := .idle
        recCtrl := 0x00, capState := .idle, capBuf := [], capOvf := false, cntTxFrames := 0, cntRxFrames := 0
        cntRetx := 0 } := rfl

/-- Settles O44: a `RESET` is `resetRegisters`, whose fields are the table of R47 and which leaves the reset state as
it is. -/
theorem resetRestoresEveryRegister : Obligations.ResetRestoresEveryRegister := by
  refine ⟨fun s => ?_, ?_⟩
  · rw [exec_resetInput, resetRegisters_eq]
  · rw [exec_resetInput, resetRegisters_reset]

end Sys2Proof.Machine

namespace Sys2Proof.Machine

/-! ## The check byte (R121) -/

@[simp] theorem fold_nil : fold [] = 0 := rfl

theorem fold_append_singleton (P : Bytes) (b : Byte) : fold (P ++ [b]) = fold P ^^^ b := by
  simp [fold]

/-- The self-check of R121: appending the check byte cancels the sum. -/
theorem fold_append_bcc2 (P : Bytes) : fold (P ++ [bcc2 P]) = 0 :=
  (fold_append_singleton P (bcc2 P)).trans BitVec.xor_self

/-- Settles O1: the last byte enters the running sum last, and the check byte cancels it. -/
theorem checkByteIsTheRunningXor : Obligations.CheckByteIsTheRunningXor := fun P b =>
  ⟨rfl, fold_nil, fold_append_singleton P b, fold_append_bcc2 P⟩

/-! ## STUFF (R122) -/

@[simp] theorem stuff_nil : stuff [] = [] := rfl

@[simp] theorem stuff_flag_cons (B : Bytes) : stuff (flag :: B) = esc :: escFlag :: stuff B := rfl

@[simp] theorem stuff_esc_cons (B : Bytes) : stuff (esc :: B) = esc :: escEsc :: stuff B := rfl

theorem stuff_cons_of_ne {b : Byte} (hf : b ≠ flag) (he : b ≠ esc) (B : Bytes) : stuff (b :: B) = b :: stuff B := by
  simp [stuff, stuffByte, hf, he]

/-- Induction along the three cases of `STUFF`: the flag, the escape and every other byte. -/
theorem stuff_induction {motive : Bytes → Prop} (nil : motive [])
    (flagByte : ∀ B, motive B → motive (flag :: B))
    (escByte : ∀ B, motive B → motive (esc :: B))
    (dataByte : ∀ b B, b ≠ flag → b ≠ esc → motive B → motive (b :: B)) (B : Bytes) : motive B := by
  induction B with
  | nil => exact nil
  | cons b B ih =>
    by_cases hf : b = flag
    · exact hf ▸ flagByte B ih
    · by_cases he : b = esc
      · exact he ▸ escByte B ih
      · exact dataByte b B hf he ih

theorem length_le_length_stuff (B : Bytes) : B.length ≤ (stuff B).length := by
  induction B using stuff_induction with
  | nil => exact Nat.le_refl 0
  | flagByte B ih => simp only [stuff_flag_cons, List.length_cons]; omega
  | escByte B ih => simp only [stuff_esc_cons, List.length_cons]; omega
  | dataByte b B hf he ih => simp only [stuff_cons_of_ne hf he, List.length_cons]; omega

theorem length_stuff_le (B : Bytes) : (stuff B).length ≤ 2 * B.length := by
  induction B using stuff_induction with
  | nil => exact Nat.le_refl 0
  | flagByte B ih => simp only [stuff_flag_cons, List.length_cons]; omega
  | escByte B ih => simp only [stuff_esc_cons, List.length_cons]; omega
  | dataByte b B hf he ih => simp only [stuff_cons_of_ne hf he, List.length_cons]; omega

theorem flag_not_mem_stuff (B : Bytes) : flag ∉ stuff B := by
  induction B using stuff_induction with
  | nil => simp
  | flagByte B ih => exact List.not_mem_append (s := [esc, escFlag]) (by decide) ih
  | escByte B ih => exact List.not_mem_append (s := [esc, escEsc]) (by decide) ih
  | dataByte b B hf he ih =>
    rw [stuff_cons_of_ne hf he]
    exact List.not_mem_cons_of_ne_of_not_mem hf.symm ih

theorem stuff_append (X Y : Bytes) : stuff (X ++ Y) = stuff X ++ stuff Y := by
  induction X with
  | nil => rfl
  | cons b X ih => simp [stuff, ih]

/-- Every escape byte is followed by one of the two second bytes of a pair (R122). -/
def EscapesPaired (S : Bytes) : Prop :=
  ∀ U V : Bytes, S = U ++ esc :: V → V.head? = some escFlag ∨ V.head? = some escEsc

theorem escapesPaired_nil : EscapesPaired [] := by
  intro U V h
  simp at h

theorem escapesPaired_cons_of_ne {b : Byte} {S : Bytes} (hb : b ≠ esc) (hS : EscapesPaired S) :
    EscapesPaired (b :: S) := by
  intro U V h
  cases U with
  | nil => exact absurd (List.cons.inj h).1 hb
  | cons u U => exact hS U V (List.cons.inj h).2

/-- A pair before paired escapes: its second byte is no escape, so only its first can be the one looked at. -/
theorem escapesPaired_pair {x : Byte} {S : Bytes} (hx : x = escFlag ∨ x = escEsc) (hS : EscapesPaired S) :
    EscapesPaired (esc :: x :: S) := by
  have hne : x ≠ esc := by rcases hx with rfl | rfl <;> decide
  intro U V h
  cases U with
  | nil =>
    obtain rfl : x :: S = V := (List.cons.inj h).2
    simpa using hx
  | cons u U => exact escapesPaired_cons_of_ne hne hS U V (List.cons.inj h).2

theorem escapesPaired_stuff (B : Bytes) : EscapesPaired (stuff B) := by
  induction B using stuff_induction with
  | nil => exact escapesPaired_nil
  | flagByte B ih => exact escapesPaired_pair (.inl rfl) ih
  | escByte B ih => exact escapesPaired_pair (.inr rfl) ih
  | dataByte b B hf he ih =>
    rw [stuff_cons_of_ne hf he]
    exact escapesPaired_cons_of_ne he ih

/-- Settles O2: the equations are the definition's, the rest goes by induction along the cases of `STUFF`. -/
theorem stuffFollowsItsEquations : Obligations.StuffFollowsItsEquations :=
  ⟨stuff_nil, fun _ _ => rfl,
    fun B => ⟨length_le_length_stuff B, length_stuff_le B, flag_not_mem_stuff B⟩,
    stuff_append, escapesPaired_stuff⟩

/-! ## DESTUFF (R123) -/

@[simp] theorem destuff_nil : destuff [] = some [] := by simp [destuff]

theorem destuff_esc_last : destuff [esc] = none := by simp [destuff]

@[simp] theorem destuff_flag_pair (S : Bytes) : destuff (esc :: escFlag :: S) = (destuff S).map (flag :: ·) := by
  simp [destuff]

@[simp] theorem destuff_esc_pair (S : Bytes) : destuff (esc :: escEsc :: S) = (destuff S).map (esc :: ·) := by
  have h : escEsc ≠ escFlag := by decide
  simp [destuff, h]

/-- An escape byte that begins no pair is data. -/
theorem destuff_esc_unpaired {x : Byte} (hf : x ≠ escFlag) (he : x ≠ escEsc) (S : Bytes) :
    destuff (esc :: x :: S) = (destuff (x :: S)).map (esc :: ·) := by
  simp [destuff, hf, he]

theorem destuff_cons_of_ne {b : Byte} (hb : b ≠ esc) (S : Bytes) : destuff (b :: S) = (destuff S).map (b :: ·) := by
  cases S with
  | nil => simp [destuff, hb]
  | cons x S => simp [destuff, hb]

@[simp] theorem destuff_stuff (B : Bytes) : destuff (stuff B) = some B := by
  induction B using stuff_induction with
  | nil => simp
  | flagByte B ih => simp [ih]
  | escByte B ih => simp [ih]
  | dataByte b B hf he ih => simp [stuff_cons_of_ne hf he, destuff_cons_of_ne he, ih]

/-- One step of the scan that emits a byte: a bound for the rest grows by one. -/
theorem length_le_of_map_cons {o : Option Bytes} {b : Byte} {n : Nat} {D : Bytes} (h : o.map (b :: ·) = some D)
    (ih : ∀ {E}, o = some E → E.length ≤ n) : D.length ≤ n + 1 := by
  obtain ⟨E, hE, rfl⟩ := Option.map_eq_some_iff.1 h
  exact Nat.succ_le_succ (ih hE)

theorem length_destuff_le {S D : Bytes} (h : destuff S = some D) : D.length ≤ S.length := by
  induction S using destuff.induct generalizing D with
  | case1 =>
    rw [destuff_nil] at h
    cases h
    exact Nat.le_refl 0
  | case2 => simp [destuff_esc_last] at h
  | case3 b hb =>
    rw [destuff_cons_of_ne hb] at h
    exact length_le_of_map_cons h (by simp)
  | case4 S ih =>
    rw [destuff_flag_pair] at h
    exact (length_le_of_map_cons h ih).trans (by simp)
  | case5 S _ ih =>
    rw [destuff_esc_pair] at h
    exact (length_le_of_map_cons h ih).trans (by simp)
  | case6 x S hf he ih =>
    rw [destuff_esc_unpaired hf he] at h
    exact length_le_of_map_cons h ih
  | case7 b x S hb ih =>
    rw [destuff_cons_of_ne hb] at h
    exact length_le_of_map_cons h ih

/-- Settles O3: one equation for each case of the scan, and both the inverse law and the bound by induction on it. -/
theorem destuffFollowsItsEquations : Obligations.DestuffFollowsItsEquations :=
  ⟨destuff_nil, destuff_esc_last, destuff_flag_pair, destuff_esc_pair, fun _ S hf he => destuff_esc_unpaired hf he S,
    fun _ S hb => destuff_cons_of_ne hb S, destuff_stuff, fun _ _ => length_destuff_le⟩

/-! ## ENC_SUP and ENC_INFO (R124, R125) -/

/-- The bytes between the flags of an I frame: the header, then the stuffed payload and check byte (R82). -/
theorem encInfo_eq (s : Bit) (P : Bytes) :
    encInfo s P = flag :: (([aTx, cI s, bcc1 aTx (cI s)] ++ stuff (P ++ [bcc2 P])) ++ [flag]) := by
  simp [encInfo, stuff_append]

/-- An I frame without its flags: what `DEC_INFO` is given. -/
theorem encInfo_drop_dropLast (s : Bit) (P : Bytes) :
    ((encInfo s P).drop 1).dropLast = aTx :: cI s :: bcc1 aTx (cI s) :: stuff (P ++ [bcc2 P]) := by
  rw [encInfo_eq, List.drop_one, List.tail_cons, List.dropLast_concat]
  rfl

theorem length_encInfo (s : Bit) (P : Bytes) : (encInfo s P).length = (stuff (P ++ [bcc2 P])).length + 5 := by
  simp [encInfo_eq]

theorem flag_not_mem_header (s : Bit) : flag ∉ [aTx, cI s, bcc1 aTx (cI s)] := by
  revert s
  decide

theorem flag_not_mem_encInfo_inside (s : Bit) (P : Bytes) : flag ∉ ((encInfo s P).drop 1).dropLast := by
  rw [encInfo_drop_dropLast]
  exact List.not_mem_append (flag_not_mem_header s) (flag_not_mem_stuff _)

/-- Settles O4: the formats are the definitions'; the bounds and the missing flags come from those of `STUFF` on the
payload and its check byte. -/
theorem encodersGiveTheFrameFormats : Obligations.EncodersGiveTheFrameFormats := by
  refine ⟨fun _ _ => rfl, fun _ _ => rfl, fun b P => ?_⟩
  have hlow := length_le_length_stuff (P ++ [bcc2 P])
  have hhigh := length_stuff_le (P ++ [bcc2 P])
  rw [List.length_append, List.length_singleton] at hlow hhigh
  rw [length_encInfo]
  exact ⟨by omega, by omega, flag_not_mem_encInfo_inside b P⟩

/-! ## DEC_INFO (R126) -/

theorem decInfo_overflow (B : Bytes) : decInfo B true = .headerBad := by
  unfold decInfo
  split <;> rfl

theorem decInfo_short {B : Bytes} (h : B.length < 3) (ovf : Bool) : decInfo B ovf = .headerBad := by
  unfold decInfo
  split
  · simp only [List.length_cons] at h
    omega
  · rfl

theorem decInfo_badHeader {a c k : Byte} (h : a ≠ aTx ∨ (c ≠ 0x00 ∧ c ≠ 0x40) ∨ k ≠ bcc1 a c) (S : Bytes) (ovf : Bool) :
    decInfo (a :: c :: k :: S) ovf = .headerBad := by
  rcases h with ha | hc | hk
  · simp only [decInfo, if_pos ha, ite_self]
  · simp only [decInfo, if_pos hc, ite_self]
  · simp only [decInfo, if_pos hk, ite_self]

theorem decInfo_malformed {c : Byte} {S : Bytes} (hc : c = 0x00 ∨ c = 0x40) (hS : destuff S = none) :
    decInfo (aTx :: c :: bcc1 aTx c :: S) false = .escapeBad := by
  rcases hc with rfl | rfl <;> simp [decInfo, hS]

/-- A body with an I header and good escapes is what the check of its destuffed part says. -/
theorem decInfo_destuffed {c : Byte} {S D : Bytes} (hc : c = 0x00 ∨ c = 0x40) (hS : destuff S = some D) :
    decInfo (aTx :: c :: bcc1 aTx c :: S) false = checkTail (seqOfI c) D := by
  rcases hc with rfl | rfl <;> simp [decInfo, hS]

@[simp] theorem checkTail_nil (s : Bit) : checkTail s [] = .checksumBad := rfl

@[simp] theorem checkTail_append_singleton (s : Bit) (P : Bytes) (k : Byte) :
    checkTail s (P ++ [k]) = if fold P = k then .good s P else .checksumBad := by
  simp [checkTail]

theorem seqOfI_eq {c : Byte} (hc : c = 0x00 ∨ c = 0x40) : seqOfI c = if c = 0x40 then 1 else 0 := by
  rcases hc with rfl | rfl <;> decide

/-- Settles O5: one lemma for each test of `DEC_INFO`, in the order of R126. -/
theorem decInfoChecksInOrder : Obligations.DecInfoChecksInOrder := by
  refine ⟨decInfo_overflow, fun _ ovf h => decInfo_short h ovf, fun _ _ _ S ovf h => decInfo_badHeader h S ovf,
    fun _ _ => decInfo_malformed, fun c S hc hS => ?_, fun c k S P hc hS => ?_⟩
  · exact (decInfo_destuffed hc hS).trans (checkTail_nil _)
  · exact (decInfo_destuffed hc hS).trans (by rw [checkTail_append_singleton, seqOfI_eq hc])

end Sys2Proof.Machine

namespace Sys2Proof.Machine

/-! ## The supervision recognizer, state by state (R141 to R145) -/

theorem recNext_idle (x : Expectation) (k b : Byte) : recNext x .idle k b = ⟨resync b, k, none⟩ := rfl

theorem recNext_flag (x : Expectation) (k b : Byte) :
    recNext x .flag k b = ⟨if b = x.addr then .addr else resync b, k, none⟩ :=
  (apply_ite (fun r : RecState => RecOut.mk r k none) (b = x.addr) .addr (resync b)).symm

theorem recNext_addr (x : Expectation) (k b : Byte) :
    recNext x .addr k b = if b ∈ x.ctrls then ⟨.ctrl, b, none⟩ else ⟨resync b, k, none⟩ := rfl

theorem recNext_ctrl_eq (x : Expectation) (k b : Byte) :
    recNext x .ctrl k b = ⟨if b = x.addr ^^^ k then .bcc else resync b, k, none⟩ :=
  (apply_ite (fun r : RecState => RecOut.mk r k none) (b = x.addr ^^^ k) .bcc (resync b)).symm

theorem recNext_bcc (x : Expectation) (k b : Byte) :
    recNext x .bcc k b = ⟨.idle, k, if b = flag then some k else none⟩ := rfl

/-- Settles O8: one equation for each state of the recognizer; where no expected value fits, `resync` is the flag
test. -/
theorem recognizerTransitionTable : Obligations.RecognizerTransitionTable := fun x k b =>
  ⟨recNext_idle x k b, recNext_flag x k b, recNext_addr x k b, recNext_ctrl_eq x k b, recNext_bcc x k b⟩

/-! ## The capture, state by state (R151 to R154) -/

theorem below_eq_true_iff {n : Nat} {cap : Option Nat} :
    below n cap = true ↔ cap = none ∨ ∃ m, cap = some m ∧ n < m := by
  cases cap <;> simp [below]

theorem below_eq_false_iff {n : Nat} {cap : Option Nat} : below n cap = false ↔ ∃ m, cap = some m ∧ m ≤ n := by
  cases cap <;> simp [below]

section
variable {cap : Option Nat} {buf : Bytes} {ovf : Bool} {b : Byte}

theorem capNext_idle_of_flag (hb : b = flag) : capNext cap .idle buf ovf b = ⟨.flag, [], false, none⟩ := if_pos hb

theorem capNext_idle_of_ne (hb : b ≠ flag) : capNext cap .idle buf ovf b = ⟨.idle, buf, ovf, none⟩ := if_neg hb

theorem capNext_flag_of_flag (hb : b = flag) : capNext cap .flag buf ovf b = ⟨.flag, buf, ovf, none⟩ := if_pos hb

theorem capNext_flag_of_ne (hb : b ≠ flag) : capNext cap .flag buf ovf b = ⟨.body, [b], ovf, none⟩ := if_neg hb

/-- A closing flag hands the body on and clears the buffer (R153). -/
theorem capNext_body_of_flag (hb : b = flag) :
    capNext cap .body buf ovf b = ⟨.idle, [], false, some (buf, ovf)⟩ := if_pos hb

theorem capNext_body_of_below (hb : b ≠ flag) (hroom : below buf.length cap = true) :
    capNext cap .body buf ovf b = ⟨.body, buf ++ [b], ovf, none⟩ := (if_neg hb).trans (if_pos hroom)

/-- At the capacity a byte is dropped and the overflow noted (R154). -/
theorem capNext_body_of_full (hb : b ≠ flag) (hfull : below buf.length cap = false) :
    capNext cap .body buf ovf b = ⟨.body, buf, true, none⟩ :=
  (if_neg hb).trans (if_neg (Bool.eq_false_iff.1 hfull))

end

/-- Settles O9: one equation for each state and branch of the capture, the room in the buffer read off `below`, and
`DEC_INFO`'s overflow rule. -/
theorem captureTransitionTable : Obligations.CaptureTransitionTable := fun _ buf _ _ =>
  ⟨capNext_idle_of_flag, capNext_idle_of_ne, capNext_flag_of_flag, capNext_flag_of_ne, capNext_body_of_flag,
    fun hb hroom => capNext_body_of_below hb (below_eq_true_iff.2 hroom),
    fun hb hfull => capNext_body_of_full hb (below_eq_false_iff.2 hfull), decInfo_overflow buf⟩

end Sys2Proof.Machine

namespace Sys2Proof.Machine

/-! ## EXPIRE (R173) -/

section
variable {s : State}

theorem expireFlags_of_running (h : s.timerRunning = true) :
    expireFlags s = { s with timerRunning := false, timedOut := true, retryCnt := s.retryCnt + 1 } := if_pos h

theorem expireFlags_of_stopped (h : s.timerRunning = false) : expireFlags s = s := if_neg (Bool.eq_false_iff.1 h)

end

theorem exec_expire (s : State) : exec .expire s = .next (expireFlags s) := rfl

/-- Settles O13: one lemma for each value of `timer_running`. -/
theorem expireEndsTheRunningAttempt : Obligations.ExpireEndsTheRunningAttempt := by
  refine fun s => ⟨fun hrun => ?_, fun hstop => ?_⟩
  · rw [exec_expire, expireFlags_of_running hrun]
  · rw [exec_expire, expireFlags_of_stopped hstop]

/-! ## The bound test, branch by branch (R172, R174) -/

theorem isTimed_iff {p : Phase} : isTimed p = true ↔ ∃ e, timeoutError p = some e := Option.isSome_iff_exists

theorem exec_tick (s : State) : exec .tick s = .next (loopCheckIfTimed s) := rfl

theorem exec_loopCheck (s : State) : exec .loopCheck s = .next (loopCheckIfTimed s) := rfl

section
variable {s : State} {e : Status}

/-- At the bound the operation fails with the error of its phase. -/
theorem loopCheckIfTimed_of_bound (he : timeoutError s.phase = some e) (hbound : s.ntries ≤ s.retryCnt) :
    loopCheckIfTimed s = afterFail e s :=
  calc loopCheckIfTimed s
    _ = loopCheckWith e s := loopCheckIfTimed_timed he
    _ = fail e s := if_pos hbound
    _ = afterFail e s := fail_eq e s

/-- Below the bound a running attempt goes on, whatever the phase. -/
theorem loopCheckIfTimed_of_running (hlt : s.retryCnt < s.ntries) (hrun : s.timerRunning = true) :
    loopCheckIfTimed s = s := by
  cases he : timeoutError s.phase with
  | none => exact loopCheckIfTimed_untimed he
  | some e => rw [loopCheckIfTimed_timed he, loopCheckWith, if_neg (Nat.not_le.2 hlt), if_pos hrun]

/-- Below the bound a stopped timer means a new attempt: the frame is written and the timer started. -/
theorem loopCheckIfTimed_of_stopped (he : timeoutError s.phase = some e) (hlt : s.retryCnt < s.ntries)
    (hstop : s.timerRunning = false) : loopCheckIfTimed s = afterWrite s := by
  rw [loopCheckIfTimed_timed he, loopCheckWith, if_neg (Nat.not_le.2 hlt), if_neg (Bool.eq_false_iff.1 hstop),
    startAttempt_eq]

end

/-- The bound test is idempotent (R172): a failure leaves `TIMED`, and a write leaves a timer running below the
bound. -/
theorem loopCheckIfTimed_idem (s : State) : loopCheckIfTimed (loopCheckIfTimed s) = loopCheckIfTimed s := by
  cases he : timeoutError s.phase with
  | none => rw [loopCheckIfTimed_untimed he, loopCheckIfTimed_untimed he]
  | some e =>
    rw [loopCheckIfTimed_timed he]
    obtain ⟨-, h⟩ | ⟨hlt, hrun, h⟩ | ⟨hlt, -, h⟩ := loopCheckWith_cases e s <;> rw [h]
    · exact loopCheckIfTimed_untimed rfl
    · exact loopCheckIfTimed_of_running hlt hrun
    · rw [startAttempt_eq]
      exact loopCheckIfTimed_of_running (s := afterWrite s) hlt rfl

/-- Settles O14: in a timed phase `TICK` and `LoopCheck` are both the bound test; in the three untimed waits there is
none. -/
theorem tickRunsTheBoundTest : Obligations.TickRunsTheBoundTest := by
  refine fun s => ⟨fun _ => ?_, fun huntimed => ?_, fun _ hlt hrun => ?_, fun htimed hlt hstop => ?_⟩
  · rw [exec_tick, exec_loopCheck]
  · have he : timeoutError s.phase = none := by rcases huntimed with h | h | h <;> rw [h] <;> rfl
    rw [exec_tick, loopCheckIfTimed_untimed he]
  · rw [exec_tick, loopCheckIfTimed_of_running hlt hrun]
  · obtain ⟨e, he⟩ := isTimed_iff.1 htimed
    rw [exec_tick, loopCheckIfTimed_of_stopped he hlt hstop]

/-- Settles O15: one lemma for each branch of the bound test, then its idempotence. -/
theorem loopCheckTestsTheBoundThenWrites : Obligations.LoopCheckTestsTheBoundThenWrites := by
  refine fun s e he => ⟨fun hbound => ?_, fun hlt hrun => ?_, fun hlt hstop => ?_, fun t ht => ?_⟩
  · rw [exec_loopCheck, loopCheckIfTimed_of_bound he hbound]
    rfl
  · rw [exec_loopCheck, loopCheckIfTimed_of_running hlt hrun]
  · rw [exec_loopCheck, loopCheckIfTimed_of_stopped he hlt hstop]
    rfl
  · cases ht
    rw [exec_loopCheck, loopCheckIfTimed_idem]

/-! ## StartTimed (R171) -/

theorem exec_startTimed (p : TimedPhase) (F : Bytes) (s : State) :
    exec (.startTimed p F) s = .next (startTimed p F s) := rfl

/-- The exchange that has just started has no timer to cancel when it fails (R182). -/
theorem cancelOut_exchangeStart (p : TimedPhase) (F : Bytes) (s : State) : cancelOut (exchangeStart p F s) = [] := rfl

/-- Settles O16: `startTimed_pos` with a first attempt to make, `startTimed_zero` without one. -/
theorem startTimedLatchesAndWrites : Obligations.StartTimedLatchesAndWrites := by
  refine fun s p F => ⟨fun hpos => ?_, fun hzero => ?_⟩
  · rw [exec_startTimed, startTimed_pos p F s hpos]
    rfl
  · obtain ⟨e, he, hfail⟩ := startTimed_zero p F s hzero
    refine ⟨e, he, ?_⟩
    rw [exec_startTimed, hfail, fail_eq, afterFail, cancelOut_exchangeStart, List.append_nil]
    rfl

/-! ## CancelTimer, Fail, WriteFrame (R175, R176, R181) -/

section
variable {s : State}

theorem cancelTimer_of_running (h : s.timerRunning = true) :
    cancelTimer s = { s with timerRunning := false, out := s.out ++ [.tmrCancel] } := if_pos h

theorem cancelTimer_of_stopped (h : s.timerRunning = false) : cancelTimer s = s := if_neg (Bool.eq_false_iff.1 h)

end

theorem bump_unbounded {p : Params} (h : p.cntW = none) (n : Nat) : bump p n = n + 1 := by
  rw [bump, h]

/-- A bounded statistics counter wraps (R43, R309). -/
theorem bump_bounded {p : Params} {w : Nat} (h : p.cntW = some w) (n : Nat) : bump p n = (n + 1) % 2 ^ w := by
  rw [bump, h]

theorem exec_cancelTimer (s : State) : exec .cancelTimer s = .next (cancelTimer s) := rfl

theorem exec_fail (e : Status) (s : State) : exec (.fail e) s = .next (afterFail e s) :=
  congrArg Host.Outcome.next (fail_eq e s)

theorem exec_writeFrame (F : Bytes) (s : State) :
    exec (.writeFrame F) s = .next { s with cntTxFrames := bump s.params s.cntTxFrames, out := s.out ++ [.tx F] } := rfl

/-- Settles O17: each procedure's own lemma, and the two kinds of counter for the count of frames written. -/
theorem cancelFailAndWriteComplete : Obligations.CancelFailAndWriteComplete := by
  refine fun s e F => ⟨fun hrun => ?_, fun hstop => ?_, exec_fail e s, fun hw => ?_, fun w hw => ?_⟩
  · rw [exec_cancelTimer, cancelTimer_of_running hrun]
  · rw [exec_cancelTimer, cancelTimer_of_stopped hstop]
  · rw [exec_writeFrame, bump_unbounded hw]
  · rw [exec_writeFrame, bump_bounded hw]

/-! ## A byte in a supervision wait (R177) -/

theorem phase_ne_idle_of_expectation {p : Phase} {x : Expectation} (hx : expectation p = some x) : p ≠ .idle := by
  rintro rfl
  cases hx

/-- In a supervision wait with nothing queued, the byte that arrives is the one the recognizer reads. -/
theorem rxInput_supervision {s : State} {x : Expectation} (hx : expectation s.phase = some x) (hq : s.rxq = [])
    (b : Byte) : rxInput b s = rxSupervision x b s := by
  have hs : { s with rxq := [] } = s := by rw [← hq]
  rw [rxInput_fresh (phase_ne_idle_of_expectation hx) hq, hs, rxTaken_supervision hx]

/-- An Accept leaves the recognizer idle, holding the control byte it reports (R145). -/
theorem recNext_eq_of_accept {x : Expectation} {r : RecState} {k b c : Byte} (h : (recNext x r k b).accept = some c) :
    recNext x r k b = ⟨.idle, c, some c⟩ := by
  obtain ⟨rfl, rfl, rfl⟩ := recNext_accept.1 h
  rfl

/-- A dispatched Accept and then the bound test, as two instructions run one after the other. -/
theorem execAll_handleAccept_tick (c : Byte) (s : State) :
    execAll [.handleAccept c, .tick] s = andThen (handleAccept c s) (fun t => .next (loopCheckIfTimed t)) := rfl

/-- Settles O32: the byte goes to the recognizer, and the two cases of its answer are `rxSupervision_none` and
`rxSupervision_some`. -/
theorem supervisionByteRunsTheRecognizer : Obligations.SupervisionByteRunsTheRecognizer := by
  intro s x b hx hq
  have hexec : exec (.rxbyteSup b) s = rxSupervision x b s := rxInput_supervision hx hq b
  refine ⟨fun hnone => ?_, fun hnone hlt hrun => ?_, fun c hsome => ?_⟩
  · rw [hexec, rxSupervision_none hnone]
    rfl
  · have hgoes : loopCheckIfTimed (recWrite (recOut x b s) s) = recWrite (recOut x b s) s :=
      loopCheckIfTimed_of_running hlt hrun
    rw [hexec, rxSupervision_none hnone, hgoes]
    rfl
  · have hout : recOut x b s = ⟨.idle, c, some c⟩ := recNext_eq_of_accept hsome
    rw [hexec, rxSupervision_some hsome, hout, execAll_handleAccept_tick]
    rfl

end Sys2Proof.Machine

namespace Sys2Proof.Machine

/-! ## Commands in P_IDLE (R9, R205) -/

section
variable {s : State}

/-- In `P_IDLE` a command is taken. -/
theorem whenReady_of_idle (h : s.phase = .idle) (t : State) : whenReady s t = .next t := if_pos h

theorem exec_nop_of_idle (h : s.phase = .idle) : exec .nop s = .next s := whenReady_of_idle h s

theorem exec_openCmd_of_idle (h : s.phase = .idle) (r : Role) (n d : Nat) :
    exec (.openCmd r n d) s = .next (openBody r n d s) := whenReady_of_idle h _

theorem exec_sendCmd_of_idle (h : s.phase = .idle) (P : Bytes) : exec (.sendCmd P) s = .next (sendBody P s) :=
  whenReady_of_idle h _

theorem exec_receiveCmd_of_idle (h : s.phase = .idle) : exec .receiveCmd s = .next (receiveBody s) :=
  whenReady_of_idle h _

theorem exec_closeCmd_of_idle (h : s.phase = .idle) : exec .closeCmd s = .next (closeBody s) := whenReady_of_idle h _

theorem exec_reserved5_of_idle (h : s.phase = .idle) : exec .reserved5 s = .next (refuse .illegalCommand s) :=
  whenReady_of_idle h _

theorem exec_reserved6_of_idle (h : s.phase = .idle) : exec .reserved6 s = .next (refuse .illegalCommand s) :=
  whenReady_of_idle h _

theorem exec_reserved7_of_idle (h : s.phase = .idle) : exec .reserved7 s = .next (refuse .illegalCommand s) :=
  whenReady_of_idle h _

end

/-- A refusal is one `DONE` and no register (R204). -/
theorem refuse_eq (e : Status) (s : State) : refuse e s = { s with out := s.out ++ [.done e none] } := rfl

/-- Settles O24: in `P_IDLE` the four codes are taken, NOP as the identity and the others as a refusal. -/
theorem nopAndReservedCodes : Obligations.NopAndReservedCodes := fun _ hidle =>
  ⟨exec_nop_of_idle hidle, exec_reserved5_of_idle hidle, exec_reserved6_of_idle hidle, exec_reserved7_of_idle hidle⟩

/-! ## The bodies of the commands, case by case (R191, R196, R220, R225) -/

section
variable {s : State}

theorem openBody_tx_of_closed (h : s.sess = .closed) (n d : Nat) :
    openBody .tx n d s = startTimed .openTxWaitUa (encSup aTx cSet) (openSession .tx n d s) := if_pos h

theorem openBody_rx_of_closed (h : s.sess = .closed) (n d : Nat) :
    openBody .rx n d s = freshRecognizer { openSession .rx n d s with phase := .openRxWaitSet } := if_pos h

theorem openBody_refused (h : s.sess ≠ .closed) (r : Role) (n d : Nat) :
    openBody r n d s = refuse .illegalCommand s := if_neg h

theorem sendBody_refused (h : ¬ (s.sess = .opened ∧ s.role = .tx)) (P : Bytes) :
    sendBody P s = refuse .illegalCommand s := if_neg h

theorem receiveBody_refused (h : ¬ (s.sess = .opened ∧ s.role = .rx)) :
    receiveBody s = refuse .illegalCommand s := if_neg h

theorem closeBody_tx_of_opened (h : s.sess = .opened) (hrole : s.role = .tx) :
    closeBody s = startTimed .closeTxWaitDisc (encSup aTx cDisc) { s with sess := .closing } := by
  rw [closeBody, if_pos h, hrole]

theorem closeBody_rx_of_opened (h : s.sess = .opened) (hrole : s.role = .rx) :
    closeBody s = freshRecognizer { s with sess := .closing, phase := .closeRxWaitDisc } := by
  rw [closeBody, if_pos h, hrole]

theorem closeBody_refused (h : s.sess ≠ .opened) : closeBody s = refuse .illegalCommand s := if_neg h

end

/-- Settles O25: by cases on the command; each is refused by its own test of the session and the role. -/
theorem illegalCommandsChangeNothing : Obligations.IllegalCommandsChangeNothing := by
  intro s i hidle hcommand
  refine ⟨?_, fun hnop hopen hsend hreceive hclose => ?_⟩
  · rintro rfl
    exact exec_nop_of_idle hidle
  rw [← refuse_eq]
  cases i with
  | nop => exact absurd rfl hnop
  | openCmd r n d => rw [exec_openCmd_of_idle hidle, openBody_refused (hopen r n d rfl)]
  | sendCmd P => rw [exec_sendCmd_of_idle hidle, sendBody_refused (hsend P rfl)]
  | receiveCmd => rw [exec_receiveCmd_of_idle hidle, receiveBody_refused (hreceive rfl)]
  | closeCmd => rw [exec_closeCmd_of_idle hidle, closeBody_refused (hclose rfl)]
  | reserved5 => exact exec_reserved5_of_idle hidle
  | reserved6 => exact exec_reserved6_of_idle hidle
  | reserved7 => exact exec_reserved7_of_idle hidle
  | _ => cases hcommand

/-! ## Handshakes that start a timed exchange (R171, R182, R191, R196, R200) -/

/-- What an exchange with no attempt to make leaves: its frame latched, the failure reported, nothing written (R182). -/
def exchangeFailed (p : TimedPhase) (F : Bytes) (e : Status) (s : State) : State :=
  { exchangeStart p F s with sess := .failed, phase := .idle, err := e, out := s.out ++ [.done e none] }

theorem startTimed_eq_exchangeFailed {p : TimedPhase} {e : Status} {s : State}
    (he : timeoutError (timedPhase p) = some e) (hzero : s.ntries = 0) (F : Bytes) :
    startTimed p F s = exchangeFailed p F e s := by
  obtain ⟨e', he', hfail⟩ := startTimed_zero p F s hzero
  obtain rfl : e = e' := Option.some.inj (he.symm.trans he')
  rw [hfail, fail_eq, afterFail, cancelOut_exchangeStart, List.append_nil]
  rfl

/-- Settles O20: `openBody`'s cases; the Transmitter's first attempt is made with `ntries > 0` and fails at once
without. -/
theorem openStartsASession : Obligations.OpenStartsASession := by
  refine fun s n d hidle => ⟨fun hclosed hpos => ?_, fun hclosed => ?_, fun hclosed => ?_, fun hne r => ?_⟩
  · rw [exec_openCmd_of_idle hidle, openBody_tx_of_closed hclosed, startTimed_pos _ _ (openSession .tx n d s) hpos]
    rfl
  · rw [exec_openCmd_of_idle hidle, openBody_tx_of_closed hclosed,
      startTimed_eq_exchangeFailed (s := openSession .tx 0 d s) rfl rfl]
    rfl
  · rw [exec_openCmd_of_idle hidle, openBody_rx_of_closed hclosed]
    rfl
  · rw [exec_openCmd_of_idle hidle, openBody_refused hne, refuse_eq]

/-- Settles O21: `closeBody`'s cases; the Transmitter's first attempt is made with `ntries > 0` and fails at once
without. -/
theorem closeStartsTheHandshake : Obligations.CloseStartsTheHandshake := by
  refine fun s hidle => ⟨fun hopen hrole hpos => ?_, fun hopen hrole hzero => ?_, fun hopen hrole => ?_, fun hne => ?_⟩
  · rw [exec_closeCmd_of_idle hidle, closeBody_tx_of_opened hopen hrole,
      startTimed_pos _ _ { s with sess := .closing } hpos]
    rfl
  · rw [exec_closeCmd_of_idle hidle, closeBody_tx_of_opened hopen hrole,
      startTimed_eq_exchangeFailed (s := { s with sess := .closing }) rfl hzero]
    rfl
  · rw [exec_closeCmd_of_idle hidle, closeBody_rx_of_opened hopen hrole]
    rfl
  · rw [exec_closeCmd_of_idle hidle, closeBody_refused hne, refuse_eq]

/-- The row of one phase runs in it. -/
theorem inPhase_of_eq {s : State} {p : Phase} (h : s.phase = p) (r : Res) : inPhase p s r = r := if_pos h

/-- The Receiver's answer to DISC is a timed exchange of its own DISC (R200). -/
theorem exec_acceptDiscCloseRx {s : State} (h : s.phase = .closeRxWaitDisc) :
    exec .acceptDiscCloseRx s = .next (startTimed .closeRxWaitUa (encSup aRx cDisc) s) := inPhase_of_eq h _

/-- Settles O27: the accept starts an exchange, which waits with `ntries > 0` and fails at once without. -/
theorem receiverAnswersDisc : Obligations.ReceiverAnswersDisc := by
  refine fun s hphase => ⟨fun hpos => ?_, fun hzero => ?_⟩
  · rw [exec_acceptDiscCloseRx hphase, startTimed_pos _ _ s hpos]
    rfl
  · rw [exec_acceptDiscCloseRx hphase, startTimed_eq_exchangeFailed rfl hzero]
    rfl

/-! ## The accepts that end a handshake (R193, R195, R198, R201) -/

theorem acceptOpenTx_eq (s : State) :
    acceptOpenTx s =
      { s with timerRunning := false, sess := .opened, phase := .idle
               out := s.out ++ cancelOut s ++ [.done .ok none] } := by
  rw [acceptOpenTx, cancelTimer_eq]
  rfl

theorem acceptOpenRx_eq (s : State) :
    acceptOpenRx s =
      { s with sess := .opened, phase := .idle, cntTxFrames := bump s.params s.cntTxFrames
               out := s.out ++ [.tx (encSup aRx cUa), .done .ok none] } := by
  simp [acceptOpenRx, complete, emit, writeFrame]

theorem acceptCloseTx_eq (s : State) :
    acceptCloseTx s =
      { s with timerRunning := false, sess := .closed, phase := .idle, cntTxFrames := bump s.params s.cntTxFrames
               out := s.out ++ cancelOut s ++ [.tx (encSup aTx cUa), .chanClose, .done .ok none] } := by
  simp [acceptCloseTx, complete, emit, writeFrame, cancelTimer_eq]

theorem acceptCloseRxUa_eq (s : State) :
    acceptCloseRxUa s =
      { s with timerRunning := false, sess := .closed, phase := .idle
               out := s.out ++ cancelOut s ++ [.chanClose, .done .ok none] } := by
  simp [acceptCloseRxUa, complete, emit, cancelTimer_eq]

/-- Settles O26: each accept row runs in its phase, where it is the rule whose next state is given above. -/
theorem handshakeAcceptsEndTheirWait : Obligations.HandshakeAcceptsEndTheirWait := by
  refine fun s => ⟨fun hphase => ?_, fun hphase => ?_, fun hphase => ?_, fun hphase => ?_⟩
  · exact (inPhase_of_eq hphase _).trans (congrArg Host.Outcome.next (acceptOpenTx_eq s))
  · exact (inPhase_of_eq hphase _).trans (congrArg Host.Outcome.next (acceptOpenRx_eq s))
  · exact (inPhase_of_eq hphase _).trans (congrArg Host.Outcome.next (acceptCloseTx_eq s))
  · exact (inPhase_of_eq hphase _).trans (congrArg Host.Outcome.next (acceptCloseRxUa_eq s))

end Sys2Proof.Machine

namespace Sys2Proof.Machine

/-! ## SEND and RECEIVE (R220, R225) -/

theorem within_eq_true_iff {n : Nat} {cap : Option Nat} : within n cap = true ↔ ∀ m, cap = some m → n ≤ m := by
  cases cap <;> simp [within]

theorem within_eq_false_of_lt {n m : Nat} {cap : Option Nat} (hcap : cap = some m) (hlt : m < n) :
    within n cap = false := by
  rw [hcap]
  exact decide_eq_false (Nat.not_le.2 hlt)

section
variable {s : State} {P : Bytes}

/-- A payload that fits starts the timed exchange of its frame, encoded with the current `ns`. -/
theorem sendBody_of_fits (hopen : s.sess = .opened) (hrole : s.role = .tx)
    (hfits : within P.length s.params.maxPayload = true) :
    sendBody P s = startTimed .sendWaitAck (encInfo s.ns P) s :=
  (if_pos ⟨hopen, hrole⟩).trans (if_pos hfits)

theorem sendBody_of_tooLong (hopen : s.sess = .opened) (hrole : s.role = .tx)
    (hlong : within P.length s.params.maxPayload = false) : sendBody P s = refuse .payloadTooLong s :=
  (if_pos ⟨hopen, hrole⟩).trans (if_neg (Bool.eq_false_iff.1 hlong))

theorem receiveBody_of_opened (hopen : s.sess = .opened) (hrole : s.role = .rx) :
    receiveBody s = { s with phase := .recvCapture, capState := .idle, capBuf := [], capOvf := false } :=
  if_pos ⟨hopen, hrole⟩

/-- A session that is not open, or of another role, does not allow a command of role `r`. -/
theorem not_opened_and_role {r r' : Role} (hr : r' ≠ r) (h : s.sess ≠ .opened ∨ s.role = r') :
    ¬ (s.sess = .opened ∧ s.role = r) := by
  rintro ⟨hopen, hrole⟩
  exact h.elim (fun hne => hne hopen) (fun hrole' => hr (hrole'.symm.trans hrole))

end

/-- Settles O22: `sendBody`'s cases; the first attempt is made with `ntries > 0` and fails at once without. -/
theorem sendStartsTheExchange : Obligations.SendStartsTheExchange := by
  refine fun s P hidle => ⟨fun hopen hrole hfits hpos => ?_, fun hopen hrole hfits hzero => ?_,
    fun m hopen hrole hcap hlt => ?_, fun hillegal => ?_⟩ <;> rw [exec_sendCmd_of_idle hidle]
  · rw [sendBody_of_fits hopen hrole (within_eq_true_iff.2 hfits), startTimed_pos _ _ s hpos]
    rfl
  · rw [sendBody_of_fits hopen hrole (within_eq_true_iff.2 hfits), startTimed_eq_exchangeFailed rfl hzero]
    rfl
  · rw [sendBody_of_tooLong hopen hrole (within_eq_false_of_lt hcap hlt), refuse_eq]
  · rw [sendBody_refused (not_opened_and_role (by decide) hillegal), refuse_eq]

/-- Settles O23: `receiveBody`'s two cases. -/
theorem receiveStartsTheCapture : Obligations.ReceiveStartsTheCapture := by
  refine fun s hidle => ⟨fun hopen hrole => ?_, fun hillegal => ?_⟩ <;> rw [exec_receiveCmd_of_idle hidle]
  · rw [receiveBody_of_opened hopen hrole]
  · rw [receiveBody_refused (not_opened_and_role (by decide) hillegal), refuse_eq]

/-! ## Acknowledgements in the reply wait of SEND (R221, R223, R177) -/

theorem acceptAck_eq (s : State) :
    acceptAck s =
      { s with
        timerRunning := false, ns := ~~~ s.ns, phase := .idle
        out := s.out ++ cancelOut s ++ [.done .ok none] } := by
  rw [acceptAck, cancelTimer_eq]
  rfl

/-- The control byte of an RR tells the two sequence bits apart. -/
theorem cRR_ne_cRR_not : ∀ b : Bit, cRR b ≠ cRR (~~~ b) := by decide

theorem cRR_ne_cRej : ∀ b r : Bit, cRR b ≠ cRej r := by decide

theorem handleAccept_sendWaitAck {s : State} (h : s.phase = .sendWaitAck) (c : Byte) :
    handleAccept c s = acceptSend c s := by
  rw [handleAccept, h]

theorem acceptSend_rrSame (s : State) : acceptSend (cRR s.ns) s = .next s := by
  have hrej : ¬ (cRR s.ns = cRej 0 ∨ cRR s.ns = cRej 1) := not_or.2 ⟨cRR_ne_cRej _ _, cRR_ne_cRej _ _⟩
  rw [acceptSend, if_neg (cRR_ne_cRR_not s.ns), if_neg hrej, if_pos rfl]

/-- In the reply wait of SEND, RR of the bit just sent acknowledges nothing and is ignored (R223). -/
theorem handleAccept_rrSame {s : State} {c : Byte} (h : s.phase = .sendWaitAck) (hc : c = cRR s.ns) :
    handleAccept c s = .next s := by
  rw [handleAccept_sendWaitAck h, hc, acceptSend_rrSame]

/-- The flag that ends a frame raises Accept of the control byte held (R145). -/
theorem recOut_of_bcc_flag {s : State} (h : s.recState = .bcc) (x : Expectation) :
    recOut x flag s = ⟨.idle, s.recCtrl, some s.recCtrl⟩ := by
  rw [recOut, h, recNext_bcc, if_pos rfl]

/-- In the reply wait of SEND, with nothing queued, the flag that ends an RR of `ns` is counted; then the bound is
tested (R177). -/
theorem rxInput_flag_of_rrSame {s : State} (hphase : s.phase = .sendWaitAck) (hq : s.rxq = [])
    (hrec : s.recState = .bcc) (hctrl : s.recCtrl = cRR s.ns) :
    rxInput flag s = .next (loopCheckIfTimed (countRx { s with recState := .idle })) := by
  have hx : expectation s.phase = some ⟨aRx, [cRR 0, cRR 1, cRej 0, cRej 1]⟩ := by rw [hphase]; rfl
  have hout := recOut_of_bcc_flag hrec ⟨aRx, [cRR 0, cRR 1, cRej 0, cRej 1]⟩
  rw [rxInput_supervision hx hq, rxSupervision_some (congrArg RecOut.accept hout), hout,
    handleAccept_rrSame (s := countRx (recWrite _ s)) hphase hctrl]
  rfl

/-- Settles O28: RR of `~ns` is `acceptAck`; RR of `ns` changes nothing, and below the bound its flag moves only the
recognizer and the count. -/
theorem acknowledgementsInSend : Obligations.AcknowledgementsInSend := by
  refine fun s hphase => ⟨?_, inPhase_of_eq hphase _, fun hq hrec hctrl hrun hlt => ?_⟩
  · exact (inPhase_of_eq hphase _).trans (congrArg Host.Outcome.next (acceptAck_eq s))
  · refine (rxInput_flag_of_rrSame hphase hq hrec hctrl).trans ?_
    rw [loopCheckIfTimed_of_running (s := countRx { s with recState := .idle }) hlt hrun]
    rfl

/-! ## Rejections in the reply wait of SEND (R222) -/

/-- What a REJ leaves of a running attempt: it is ended and charged (R222). -/
def afterReject (s : State) : State :=
  { s with timerRunning := false, retryCnt := s.retryCnt + 1, out := s.out ++ [.tmrCancel] }

section
variable {s : State}

theorem cancelOut_of_stopped (h : s.timerRunning = false) : cancelOut s = [] := if_neg (Bool.eq_false_iff.1 h)

theorem acceptReject_of_running (h : s.timerRunning = true) : acceptReject s = afterReject s := by
  rw [acceptReject, if_pos h, cancelTimer_of_running h]
  rfl

/-- An attempt that has already ended is not charged again. -/
theorem acceptReject_of_stopped (h : s.timerRunning = false) : acceptReject s = s := if_neg (Bool.eq_false_iff.1 h)

theorem exec_acceptRej (h : s.phase = .sendWaitAck) (b : Bit) :
    exec (.acceptRej b) s = .next (acceptReject s) := inPhase_of_eq h _

/-- A REJ and then the bound test, as two instructions run one after the other. -/
theorem execAll_acceptRej_tick (h : s.phase = .sendWaitAck) (b : Bit) :
    execAll [.acceptRej b, .tick] s = .next (loopCheckIfTimed (acceptReject s)) :=
  congrArg (andThen · (execAll [.tick])) (exec_acceptRej h b)

theorem timeoutError_of_sendWaitAck (h : s.phase = .sendWaitAck) :
    timeoutError s.phase = some .maxRetransmissionsExceeded := by
  rw [h]
  rfl

/-- A write after a charged attempt is a retransmission (R45). -/
theorem retxAfter_of_pos (h : 0 < s.retryCnt) : retxAfter s = bump s.params s.cntRetx := if_pos h

end

/-- Settles O29: `acceptReject`'s two cases; after each, the timer is stopped and the bound test writes or fails. -/
theorem rejectionsInSend : Obligations.RejectionsInSend := by
  intro s b hphase
  have hrej := exec_acceptRej hphase b
  have hboth := execAll_acceptRej_tick hphase b
  have he := timeoutError_of_sendWaitAck hphase
  refine ⟨fun hrun => ?_, fun hstop => ?_, fun hrun hlt => ?_, fun hrun hbound => ?_, fun hstop hlt => ?_,
    fun hstop hbound => ?_⟩
  · rw [hrej, acceptReject_of_running hrun]
    rfl
  · rw [hrej, acceptReject_of_stopped hstop]
  · rw [hboth, acceptReject_of_running hrun, loopCheckIfTimed_of_stopped (s := afterReject s) he hlt rfl,
      afterWrite, retxAfter_of_pos (s := afterReject s) (Nat.succ_pos _)]
    simp [afterReject, hrun]
  · rw [hboth, acceptReject_of_running hrun, loopCheckIfTimed_of_bound (s := afterReject s) he hbound.ge,
      afterFail, cancelOut_of_stopped (s := afterReject s) rfl]
    simp [afterReject]
  · rw [hboth, acceptReject_of_stopped hstop, loopCheckIfTimed_of_stopped he hlt hstop]
  · rw [hboth, acceptReject_of_stopped hstop, loopCheckIfTimed_of_bound he hbound, afterFail,
      cancelOut_of_stopped hstop, List.append_nil, ← hstop]

/-! ## The answers to a captured body (R227 to R232) -/

theorem rejectBody_eq (k : Event) (s : State) :
    rejectBody k s =
      { s with cntTxFrames := bump s.params s.cntTxFrames, out := s.out ++ [.ev k, .tx (encSup aRx (cRej s.nr))] } := by
  simp [rejectBody, report, writeFrame, emit]

theorem duplicateBody_eq (s : State) :
    duplicateBody s =
      { s with
        cntRxFrames := bump s.params s.cntRxFrames, cntTxFrames := bump s.params s.cntTxFrames
        out := s.out ++ [.ev .duplicateFrame, .tx (encSup aRx (cRR s.nr))] } := by
  simp [duplicateBody, report, writeFrame, emit, countRx]

theorem deliverBody_eq (b : Bit) (P : Bytes) (s : State) :
    deliverBody b P s =
      { s with
        cntRxFrames := bump s.params s.cntRxFrames, cntTxFrames := bump s.params s.cntTxFrames
        lrfn := b, nr := ~~~ s.nr, phase := .idle
        out := s.out ++ [.tx (encSup aRx (cRR (~~~ s.nr))), .done .ok (some P)] } := by
  simp [deliverBody, writeFrame, emit, countRx]

section
variable {s : State} {B : Bytes} {ovf : Bool} {b : Bit} {P : Bytes}

theorem processBody_of_headerBad (h : decInfo B ovf = .headerBad) :
    processBody B ovf s = rejectBody .frameRejected s := by
  rw [processBody, h]

theorem processBody_of_escapeBad (h : decInfo B ovf = .escapeBad) :
    processBody B ovf s = rejectBody .malformedEscape s := by
  rw [processBody, h]

theorem processBody_of_checksumBad (h : decInfo B ovf = .checksumBad) :
    processBody B ovf s = rejectBody .checksumMismatch s := by
  rw [processBody, h]

theorem processBody_of_duplicate (h : decInfo B ovf = .good b P) (hb : b = s.lrfn) :
    processBody B ovf s = duplicateBody s := by
  rw [processBody, h]
  exact if_pos hb

theorem processBody_of_new (h : decInfo B ovf = .good b P) (hb : b ≠ s.lrfn) :
    processBody B ovf s = deliverBody b P s := by
  rw [processBody, h]
  exact if_neg hb

end

theorem exec_processBody (B : Bytes) (ovf : Bool) (s : State) :
    exec (.processBody B ovf) s = .next (processBody B ovf s) := rfl

/-- Settles O34: one lemma for each result of `DEC_INFO` and each sequence bit, and one for each answer. -/
theorem processBodyAnswersEveryBody : Obligations.ProcessBodyAnswersEveryBody := by
  refine fun s B ovf => ⟨fun h => ?_, fun h => ?_, fun h => ?_, fun b P h hb => ?_, fun b P h hb => ?_⟩ <;>
    rw [exec_processBody]
  · rw [processBody_of_headerBad h, rejectBody_eq]
    rfl
  · rw [processBody_of_escapeBad h, rejectBody_eq]
    rfl
  · rw [processBody_of_checksumBad h, rejectBody_eq]
    rfl
  · rw [processBody_of_duplicate h hb, duplicateBody_eq]
    rfl
  · rw [processBody_of_new h hb, deliverBody_eq]
    rfl

/-! ## A byte in P_RECV_CAPTURE (R226) -/

/-- Only a closing flag completes a body, and it leaves the capture as RECEIVE starts it (R153). -/
theorem capNext_eq_of_body {cap : Option Nat} {r : CapState} {buf : Bytes} {ovf : Bool} {b : Byte}
    {body : Bytes × Bool} (h : (capNext cap r buf ovf b).body = some body) :
    capNext cap r buf ovf b = ⟨.idle, [], false, some body⟩ := by
  by_cases hb : b = flag
  · cases r with
    | idle => rw [capNext_idle_of_flag hb] at h; cases h
    | flag => rw [capNext_flag_of_flag hb] at h; cases h
    | body => rw [capNext_body_of_flag hb] at h ⊢; cases h; rfl
  · cases r with
    | idle => rw [capNext_idle_of_ne hb] at h; cases h
    | flag => rw [capNext_flag_of_ne hb] at h; cases h
    | body =>
      cases hroom : below buf.length cap with
      | true => rw [capNext_body_of_below hb hroom] at h; cases h
      | false => rw [capNext_body_of_full hb hroom] at h; cases h

section
variable {s : State} {b : Byte}

/-- In the capture with nothing queued, the byte that arrives is the one the capture reads. -/
theorem rxInput_capture (hphase : s.phase = .recvCapture) (hq : s.rxq = []) (b : Byte) :
    rxInput b s = .next (rxCapture b s) := by
  have hs : { s with rxq := [] } = s := by rw [← hq]
  have hidle : s.phase ≠ .idle := by rw [hphase]; decide
  rw [rxInput_fresh hidle hq, hs, rxTaken_capture hphase]

theorem rxCapture_of_none (h : (capOut b s).body = none) : rxCapture b s = capWrite (capOut b s) s := by
  rw [rxCapture, h]

theorem rxCapture_of_some {B : Bytes} {ovf : Bool} (h : (capOut b s).body = some (B, ovf)) :
    rxCapture b s = processBody B ovf { s with capState := .idle, capBuf := [], capOvf := false } := by
  have hout : capOut b s = ⟨.idle, [], false, some (B, ovf)⟩ := capNext_eq_of_body h
  rw [rxCapture, hout]
  rfl

end

/-- Settles O33: the byte goes to the capture, whose answer is a body or none; the phase is untimed, so an empty read
tests no bound. -/
theorem captureByteRunsTheCapture : Obligations.CaptureByteRunsTheCapture := by
  intro s b hphase hq
  have hexec : exec (.rxbyteCap b) s = .next (rxCapture b s) := rxInput_capture hphase hq b
  refine ⟨fun hnone => ?_, fun B ovf hsome => ?_, ?_, fun hstop => ?_⟩
  · rw [hexec, rxCapture_of_none hnone]
    rfl
  · rw [hexec, rxCapture_of_some hsome, exec_processBody]
  · have huntimed : timeoutError s.phase = none := by rw [hphase]; rfl
    rw [exec_tick, loopCheckIfTimed_untimed huntimed]
  · rw [exec_expire, expireFlags_of_stopped hstop]

/-! ## The BODY rows (R228 to R232) -/

/-- The row of one result of `DEC_INFO` runs on a body with it. -/
theorem bodyWith_of_eq {want got : DecResult} (h : got = want) (t : State) : bodyWith want got t = .next t := if_pos h

section
variable {s : State} {B : Bytes}

theorem exec_bodyHeaderBad (hphase : s.phase = .recvCapture) {ovf : Bool} (h : decInfo B ovf = .headerBad) :
    exec (.bodyHeaderBad B ovf) s = .next (rejectBody .frameRejected s) :=
  (inPhase_of_eq hphase _).trans (bodyWith_of_eq h _)

theorem exec_bodyEscapeBad (hphase : s.phase = .recvCapture) (h : decInfo B false = .escapeBad) :
    exec (.bodyEscapeBad B) s = .next (rejectBody .malformedEscape s) :=
  (inPhase_of_eq hphase _).trans (bodyWith_of_eq h _)

theorem exec_bodyChecksumBad (hphase : s.phase = .recvCapture) (h : decInfo B false = .checksumBad) :
    exec (.bodyChecksumBad B) s = .next (rejectBody .checksumMismatch s) :=
  (inPhase_of_eq hphase _).trans (bodyWith_of_eq h _)

theorem exec_bodyDuplicate (hphase : s.phase = .recvCapture) {b : Bit} {P : Bytes}
    (h : decInfo B false = .good b P) (hb : b = s.lrfn) : exec (.bodyDuplicate B) s = .next (duplicateBody s) := by
  refine (inPhase_of_eq hphase _).trans ?_
  rw [h]
  exact if_pos hb

theorem exec_bodyNew (hphase : s.phase = .recvCapture) {b : Bit} {P : Bytes}
    (h : decInfo B false = .good b P) (hb : b ≠ s.lrfn) : exec (.bodyNew B) s = .next (deliverBody b P s) := by
  refine (inPhase_of_eq hphase _).trans ?_
  rw [h]
  exact if_neg hb

end

/-- Settles O35: each row runs on a body of its kind, and its answer is `ProcessBody`'s. -/
theorem bodyRowsAnswerTheirBody : Obligations.BodyRowsAnswerTheirBody := by
  refine fun s B ovf hphase => ⟨fun h => ?_, fun h => ?_, fun h => ?_, fun b P h hb => ?_, fun b P h hb => ?_⟩
  · rw [exec_bodyHeaderBad hphase h, rejectBody_eq]
    rfl
  · rw [exec_bodyEscapeBad hphase h, rejectBody_eq]
    rfl
  · rw [exec_bodyChecksumBad hphase h, rejectBody_eq]
    rfl
  · rw [exec_bodyDuplicate hphase h hb, duplicateBody_eq]
    rfl
  · rw [exec_bodyNew hphase h hb, deliverBody_eq]
    rfl

end Sys2Proof.Machine

namespace Sys2Proof.Machine

/-! ## Inputs that are no command: arrivals, an empty read, an expiry, a reset (R5, R104) -/

/-- The row of a frame or of a pair is the arrival of its wire bytes. -/
theorem exec_of_isArrival {i : Instr} (h : isArrival i = true) (s : State) : exec i s = rxBytes (wireBytes i) s := by
  cases i with
  | set | uaRx | uaTx | discTx | discRx | rr0 | rr1 | rej0 | rej1 => rfl
  | i0 | i1 | rrS | rejS | iS | escFlag | escEsc => rfl
  | _ => cases h

/-- An input that is no command is an arrival of bytes, whatever the state, or one of the three events without a byte. -/
theorem exec_eq_rxBytes_or_event {i : Instr} (hi : isInput i = true) (hc : isCommand i = false) :
    (∃ B, ∀ s, exec i s = rxBytes B s) ∨ i = .tick ∨ i = .expire ∨ i = .resetInput := by
  cases i with
  | tick => exact .inr (.inl rfl)
  | expire => exact .inr (.inr (.inl rfl))
  | resetInput => exact .inr (.inr (.inr rfl))
  | rxbyteSup b | rxbyteCap b => exact .inl ⟨[b], rxInput_eq_rxBytes b⟩
  | set | uaRx | uaTx | discTx | discRx | rr0 | rr1 | rej0 | rej1 => exact .inl ⟨_, exec_of_isArrival rfl⟩
  | i0 | i1 | rrS | rejS | iS | escFlag | escEsc => exact .inl ⟨_, exec_of_isArrival rfl⟩
  | nop | openCmd | sendCmd | receiveCmd | closeCmd | reserved5 | reserved6 | reserved7 => cases hc
  | _ => cases hi

/-! ## The invariant of a state (R46) -/

/-- The two halves of the invariant that speak of the registers. -/
structure Sound (s : State) : Prop extends Inv s, Coherent s

/-- The clauses of the invariant that no phase enters: the sequence numbers and the two buffers. -/
structure Unphased (s : State) : Prop where
  lrfn_nr : s.lrfn = ~~~ s.nr
  cap_noflag : flag ∉ s.capBuf
  cap_ovf : s.capOvf = true → bodyCap s.params = some s.capBuf.length
  txf_cap : within s.txf.length (txfCap s.params) = true
  buf_cap : within s.capBuf.length (bodyCap s.params) = true

theorem Sound.unphased {s : State} (h : Sound s) : Unphased s := { h with }

/-- What is left of the invariant in `P_IDLE`, where no wait is in progress. -/
theorem Unphased.sound_of_idle {s : State} (h : Unphased s) (hphase : s.phase = .idle) (htimer : s.timerRunning = false)
    (hopening : s.sess ≠ .opening) (hclosing : s.sess ≠ .closing)
    (herr : (s.sess = .failed → fatal s.err = true) ∧ (s.sess ≠ .failed → s.err = .ok)) : Sound s :=
  have huntimed : isTimed s.phase ≠ true := by rw [hphase]; decide
  { h with
    retry_le := fun hp => absurd hp huntimed
    retry_lt := by simp [htimer]
    timed_out := fun _ => htimer
    timer_timed := by simp [htimer]
    opening_iff := by simp [hphase, hopening]
    transfer_open := by simp [hphase]
    closing_iff := by simp [hphase, hclosing]
    cap_body := by simp [hphase]
    txf_frame := fun hp => absurd hp huntimed
    rec_ctrl := by simp [hphase, expectation]
    role_tx := by simp [hphase]
    role_rx := by simp [hphase]
    err_failed := herr }

/-! ### The timed exchange keeps it (R171, R172, R176) -/

theorem fatal_of_timeoutError {p : Phase} {e : Status} (h : timeoutError p = some e) : fatal e = true := by
  cases p <;> cases h <;> rfl

theorem isTimed_timedPhase (p : TimedPhase) : isTimed (timedPhase p) = true := by
  cases p <;> rfl

theorem Unphased.sound_afterFail {s : State} {e : Status} (h : Unphased s) (he : fatal e = true) :
    Sound (afterFail e s) :=
  Unphased.sound_of_idle { h with } rfl rfl nofun nofun ⟨fun _ => he, fun hne => absurd rfl hne⟩

theorem Sound.loopCheckIfTimed {s : State} (h : Sound s) : Sound (loopCheckIfTimed s) := by
  cases he : timeoutError s.phase with
  | none => rwa [loopCheckIfTimed_untimed he]
  | some e =>
    rw [loopCheckIfTimed_timed he]
    obtain ⟨-, hcheck⟩ | ⟨-, -, hcheck⟩ | ⟨hlt, -, hcheck⟩ := loopCheckWith_cases e s <;> rw [hcheck]
    · rw [fail_eq]
      exact h.unphased.sound_afterFail (fatal_of_timeoutError he)
    · exact h
    · rw [startAttempt_eq]
      exact { h with
        retry_lt := fun _ => hlt
        timed_out := nofun
        timer_timed := fun _ => isTimed_iff.2 ⟨e, he⟩ }

/-- The session in which a timed wait takes place (R24, R46(e)). -/
def exchangeSess : TimedPhase → Sess
  | .openTxWaitUa => .opening
  | .sendWaitAck => .opened
  | .closeTxWaitDisc | .closeRxWaitUa => .closing

/-- The role whose timed wait it is (R25). -/
def exchangeRole : TimedPhase → Role
  | .openTxWaitUa | .sendWaitAck | .closeTxWaitDisc => .tx
  | .closeRxWaitUa => .rx

theorem Unphased.sound_startTimed {s : State} {p : TimedPhase} {F : Bytes} (h : Unphased s) (hF : isFrame F = true)
    (hlen : within F.length (txfCap s.params) = true) (hsess : s.sess = exchangeSess p) (hrole : s.role = exchangeRole p)
    (herr : s.err = .ok) : Sound (startTimed p F s) := by
  obtain ⟨-, e, he, hst⟩ | ⟨hpos, hst⟩ := startTimed_cases p F s <;> rw [hst]
  · exact Unphased.sound_afterFail { h with txf_cap := hlen } (fatal_of_timeoutError he)
  · have hsess' : (exchangeWaiting p F s).sess = exchangeSess p := hsess
    have hrole' : (exchangeWaiting p F s).role = exchangeRole p := hrole
    have hphase : (exchangeWaiting p F s).phase = timedPhase p := rfl
    exact { h with
      retry_le := fun _ => Nat.zero_le _
      retry_lt := fun _ => hpos
      timed_out := nofun
      timer_timed := fun _ => isTimed_timedPhase p
      opening_iff := by rw [hsess', hphase]; cases p <;> decide
      transfer_open := by rw [hsess', hphase]; cases p <;> decide
      closing_iff := by rw [hsess', hphase]; cases p <;> decide
      cap_body := by rw [hphase]; cases p <;> nofun
      txf_frame := fun _ => hF
      rec_ctrl := fun _ _ => by rintro (hr | hr) <;> cases hr
      role_tx := by rw [hrole', hphase]; cases p <;> decide
      role_rx := by rw [hrole', hphase]; cases p <;> decide
      err_failed := ⟨by rw [hsess']; cases p <;> nofun, fun _ => herr⟩
      txf_cap := hlen }

/-- An attempt that ends, by an expiry or by a REJ, is one the bound has room for (R173, R222). -/
theorem Sound.attemptEnded {s : State} (h : Sound s) (hrun : s.timerRunning = true) (timedOut : Bool)
    (os : List Output) :
    Sound { s with timerRunning := false, timedOut := timedOut, retryCnt := s.retryCnt + 1, out := os } :=
  { h with
    retry_le := fun _ => h.retry_lt hrun
    retry_lt := nofun
    timed_out := fun _ => rfl
    timer_timed := nofun }

theorem Sound.expireFlags {s : State} (h : Sound s) : Sound (expireFlags s) := by
  cases hrun : s.timerRunning with
  | true =>
    rw [expireFlags_of_running hrun]
    exact h.attemptEnded hrun true s.out
  | false => rwa [expireFlags_of_stopped hrun]

theorem Sound.acceptReject {s : State} (h : Sound s) : Sound (acceptReject s) := by
  cases hrun : s.timerRunning with
  | true =>
    rw [acceptReject_of_running hrun]
    exact h.attemptEnded hrun s.timedOut _
  | false => rwa [acceptReject_of_stopped hrun]

/-! ### The accepts of R206 keep it, and every expected control byte has one -/

theorem within_encSup_txfCap (a c : Byte) (p : Params) : within (encSup a c).length (txfCap p) = true := by
  rw [within_eq_true_iff]
  intro m hm
  obtain ⟨n, -, rfl⟩ := Option.map_eq_some_iff.1 hm
  simp [encSup]

/-- A handshake that completes leaves an open or a closed session in `P_IDLE`. -/
theorem Sound.handshakeEnded {s t : State} (h : Sound s) (hne : s.sess ≠ .failed) (hphase : t.phase = .idle)
    (htimer : t.timerRunning = false) (hsess : t.sess = .opened ∨ t.sess = .closed) (ht : Unphased t)
    (herr : t.err = s.err) : Sound t := by
  have hok : t.err = .ok := herr.trans (h.err_failed.2 hne)
  rcases hsess with hs | hs <;>
    exact ht.sound_of_idle hphase htimer (by simp [hs]) (by simp [hs]) ⟨by simp [hs], fun _ => hok⟩

theorem mem_replyCtrls {c : Byte} (h : c ∈ [cRR 0, cRR 1, cRej 0, cRej 1]) (b : Bit) :
    c = cRR (~~~ b) ∨ (c = cRej 0 ∨ c = cRej 1) ∨ c = cRR b := by
  revert b
  simp only [List.mem_cons, List.not_mem_nil, or_false] at h
  rcases h with rfl | rfl | rfl | rfl <;> decide

theorem Sound.exists_acceptSend {s : State} {c : Byte} (h : Sound s) (hphase : s.phase = .sendWaitAck)
    (hc : c ∈ [cRR 0, cRR 1, cRej 0, cRej 1]) : ∃ t, acceptSend c s = .next t ∧ Sound t := by
  unfold acceptSend
  have hsess : s.sess = .opened := h.transfer_open (.inl hphase)
  split
  · refine ⟨_, rfl, ?_⟩
    rw [acceptAck_eq]
    exact h.handshakeEnded (by simp [hsess]) rfl rfl (.inl hsess) { h with } rfl
  · split
    · exact ⟨_, rfl, h.acceptReject⟩
    · rename_i hack hrej
      exact ⟨s, if_pos (((mem_replyCtrls hc s.ns).resolve_left hack).resolve_left hrej), h⟩

/-- Outside `TIMED` no timer runs (R46(d)). -/
theorem Inv.timerRunning_of_untimed {s : State} (h : Inv s) (htimed : isTimed s.phase = false) :
    s.timerRunning = false := by
  cases hrun : s.timerRunning with
  | true => exact absurd (h.timer_timed hrun) (by simp [htimed])
  | false => rfl

/-- Every control byte that the phase expects has an accept (R206). -/
theorem Sound.exists_handleAccept {s : State} {x : Expectation} {c : Byte} (h : Sound s)
    (hx : expectation s.phase = some x) (hc : c ∈ x.ctrls) : ∃ t, handleAccept c s = .next t ∧ Sound t := by
  unfold handleAccept
  cases hphase : s.phase <;> rw [hphase] at hx <;> cases hx
  case sendWaitAck => exact h.exists_acceptSend hphase hc
  all_goals
    obtain rfl := List.mem_singleton.1 hc
    refine ⟨_, if_pos rfl, ?_⟩
  case openTxWaitUa =>
    have hsess := h.opening_iff.1 (.inl hphase)
    rw [acceptOpenTx_eq]
    exact h.handshakeEnded (by simp [hsess]) rfl rfl (.inl rfl) { h with } rfl
  case openRxWaitSet =>
    have hsess := h.opening_iff.1 (.inr hphase)
    have hstop := h.timerRunning_of_untimed (by rw [hphase]; rfl)
    rw [acceptOpenRx_eq]
    exact h.handshakeEnded (by simp [hsess]) rfl hstop (.inl rfl) { h with } rfl
  case closeTxWaitDisc =>
    have hsess := h.closing_iff.1 (.inl hphase)
    rw [acceptCloseTx_eq]
    exact h.handshakeEnded (by simp [hsess]) rfl rfl (.inr rfl) { h with } rfl
  case closeRxWaitUa =>
    have hsess := h.closing_iff.1 (.inr (.inr hphase))
    rw [acceptCloseRxUa_eq]
    exact h.handshakeEnded (by simp [hsess]) rfl rfl (.inr rfl) { h with } rfl
  case closeRxWaitDisc =>
    have hsess := h.closing_iff.1 (.inr (.inl hphase))
    exact h.unphased.sound_startTimed (by decide) (within_encSup_txfCap _ _ _) hsess
      (h.role_rx (.inr (.inr (.inl hphase)))) (h.err_failed.2 (by simp [hsess]))

/-! ### Bytes keep it (R177, R226, R227) -/

theorem Sound.recWrite {s : State} {x : Expectation} (h : Sound s) (hx : expectation s.phase = some x) (b : Byte) :
    Sound (recWrite (recOut x b s) s) :=
  { h with
    rec_ctrl := by
      intro y hy hin
      obtain rfl : x = y := Option.some.inj (hx.symm.trans hy)
      exact recNext_ctrl (h.rec_ctrl x hx) hin }

/-- An Accept is of the control byte held, which the phase expects. -/
theorem Sound.mem_of_accept {s : State} {x : Expectation} {b c : Byte} (h : Sound s) (hx : expectation s.phase = some x)
    (ha : (recOut x b s).accept = some c) : c ∈ x.ctrls := by
  obtain ⟨hbcc, -, rfl⟩ := recNext_accept.1 ha
  exact h.rec_ctrl x hx (.inr hbcc)

theorem Sound.exists_rxSupervision {s : State} {x : Expectation} (h : Sound s) (hx : expectation s.phase = some x)
    (b : Byte) : ∃ t, rxSupervision x b s = .next t ∧ Sound t := by
  cases ha : (recOut x b s).accept with
  | none => exact ⟨_, rxSupervision_none ha, (h.recWrite hx b).loopCheckIfTimed⟩
  | some c =>
    have hcount : Sound (countRx (Machine.recWrite (recOut x b s) s)) := { h.recWrite hx b with }
    obtain ⟨u, hu, hsound⟩ := hcount.exists_handleAccept hx (h.mem_of_accept hx ha)
    rw [rxSupervision_some ha, hu]
    exact ⟨_, rfl, hsound.loopCheckIfTimed⟩

theorem one_le_bodyCap {p : Params} {n : Nat} (h : bodyCap p = some n) : 1 ≤ n := by
  obtain ⟨m, -, rfl⟩ := Option.map_eq_some_iff.1 h
  omega

/-- The capture keeps its three clauses of the invariant: a body is not empty, an overflow means a full buffer, and the
buffer fits (R46(f), R46(h), R62). -/
structure CaptureFits (cap : Option Nat) (r : CapState) (buf : Bytes) (ovf : Bool) : Prop where
  body_iff : r = .body ↔ buf ≠ []
  full_of_ovf : ovf = true → cap = some buf.length
  fits : within buf.length cap = true

theorem CaptureFits.capNext {cap : Option Nat} {r : CapState} {buf : Bytes} {ovf : Bool}
    (h : CaptureFits cap r buf ovf) (hcap : ∀ n, cap = some n → 1 ≤ n) (b : Byte) :
    CaptureFits cap (capNext cap r buf ovf b).state (capNext cap r buf ovf b).buf (capNext cap r buf ovf b).ovf := by
  have hempty : CaptureFits cap .idle [] false :=
    ⟨by simp, nofun, within_eq_true_iff.2 fun m _ => Nat.zero_le m⟩
  by_cases hb : b = flag
  · cases r with
    | idle => rw [capNext_idle_of_flag hb]; exact { hempty with body_iff := by simp }
    | flag => rw [capNext_flag_of_flag hb]; exact h
    | body => rw [capNext_body_of_flag hb]; exact hempty
  · cases r with
    | idle => rw [capNext_idle_of_ne hb]; exact h
    | flag =>
      rw [capNext_flag_of_ne hb]
      have hbuf : buf = [] := by simpa using h.body_iff
      subst hbuf
      refine ⟨by simp, fun hovf => ?_, within_eq_true_iff.2 hcap⟩
      exact absurd (hcap 0 (h.full_of_ovf hovf)) (by decide)
    | body =>
      cases hroom : below buf.length cap with
      | true =>
        rw [capNext_body_of_below hb hroom]
        have hlt := below_eq_true_iff.1 hroom
        refine ⟨by simp, fun hovf => ?_, within_eq_true_iff.2 fun m hm => ?_⟩
        · simp [h.full_of_ovf hovf] at hlt
        · simpa [hm] using hlt
      | false =>
        rw [capNext_body_of_full hb hroom]
        obtain ⟨m, hm, hle⟩ := below_eq_false_iff.1 hroom
        have hge := within_eq_true_iff.1 h.fits m hm
        exact { h with full_of_ovf := fun _ => by rw [hm, Nat.le_antisymm hle hge] }

theorem Sound.capWrite {s : State} (h : Sound s) (hphase : s.phase = .recvCapture) (b : Byte) :
    Sound (capWrite (capOut b s) s) := by
  have hfits : CaptureFits (bodyCap s.params) s.capState s.capBuf s.capOvf := ⟨h.cap_body hphase, h.cap_ovf, h.buf_cap⟩
  obtain ⟨hbody, hovf, hlen⟩ := hfits.capNext (fun _ => one_le_bodyCap) b
  exact { h with
    cap_body := fun _ => hbody
    cap_noflag := capNext_noflag h.cap_noflag
    cap_ovf := hovf
    buf_cap := hlen }

/-- A bit that is not the last one received is the one expected next, by R46(a). -/
theorem eq_of_ne_not : ∀ {b n : Bit}, b ≠ ~~~ n → b = ~~~ ~~~ n := by decide

theorem Sound.processBody {s : State} (h : Sound s) (hphase : s.phase = .recvCapture) (B : Bytes) (ovf : Bool) :
    Sound (processBody B ovf s) := by
  have hreject : ∀ k, Sound (rejectBody k s) := fun k => by rw [rejectBody_eq]; exact { h with }
  cases hdec : decInfo B ovf with
  | headerBad => rw [processBody_of_headerBad hdec]; exact hreject _
  | escapeBad => rw [processBody_of_escapeBad hdec]; exact hreject _
  | checksumBad => rw [processBody_of_checksumBad hdec]; exact hreject _
  | good b P =>
    by_cases hb : b = s.lrfn
    · rw [processBody_of_duplicate hdec hb, duplicateBody_eq]
      exact { h with }
    · have hsess : s.sess = .opened := h.transfer_open (.inr hphase)
      have hstop := h.timerRunning_of_untimed (by rw [hphase]; rfl)
      rw [processBody_of_new hdec hb, deliverBody_eq]
      exact h.handshakeEnded (by simp [hsess]) rfl hstop (.inl hsess)
        { h with lrfn_nr := eq_of_ne_not (h.lrfn_nr ▸ hb) } rfl

theorem Sound.rxCapture {s : State} (h : Sound s) (hphase : s.phase = .recvCapture) (b : Byte) :
    Sound (rxCapture b s) := by
  have hcap := h.capWrite hphase b
  cases hbody : (capOut b s).body with
  | none => rwa [rxCapture_of_none hbody]
  | some body =>
    have hout : capOut b s = ⟨.idle, [], false, some body⟩ := capNext_eq_of_body hbody
    rw [hout] at hcap
    rw [rxCapture_of_some hbody]
    exact hcap.processBody hphase _ _

theorem Sound.exists_rxTaken {s : State} (h : Sound s) (b : Byte) : ∃ t, rxTaken b s = .next t ∧ Sound t := by
  unfold rxTaken
  split
  · rename_i x hx
    exact h.exists_rxSupervision hx b
  · refine ⟨_, rfl, ?_⟩
    split
    · rename_i hphase
      exact h.rxCapture hphase b
    · exact h

/-- The invariant does not see the channel's queue. -/
theorem Sound.withQueue {s : State} (h : Sound s) (q : Bytes) : Sound { s with rxq := q } := { h with }

theorem Sound.exists_takeHead {s : State} (h : Sound s) : ∃ t, takeHead s = .next t ∧ Sound t := by
  unfold takeHead
  split
  · exact ⟨s, rfl, h⟩
  · split
    · exact ⟨s, rfl, h⟩
    · exact (h.withQueue _).exists_rxTaken _

theorem Sound.exists_rxInput {s : State} (h : Sound s) (b : Byte) : ∃ t, rxInput b s = .next t ∧ Sound t :=
  (h.withQueue _).exists_takeHead

/-- No byte of the line stops the block, and each keeps the invariant. -/
theorem Sound.exists_rxBytes {s : State} (h : Sound s) (B : Bytes) : ∃ t, rxBytes B s = .next t ∧ Sound t := by
  induction B generalizing s with
  | nil => exact ⟨s, rfl, h⟩
  | cons b B ih =>
    obtain ⟨u, hu, hsound⟩ := h.exists_rxInput b
    rw [rxBytes_cons, hu]
    exact ih hsound

/-! ### Commands keep it (R191, R196, R220, R225) -/

theorem isFrame_of_flags {B : Bytes} (h : flag ∉ B) : isFrame (flag :: (B ++ [flag])) = true := by
  simp [isFrame, h]

/-- An I frame is a whole frame: flags at its ends and none between (R64). -/
theorem isFrame_encInfo (b : Bit) (P : Bytes) : isFrame (encInfo b P) = true := by
  rw [encInfo_eq]
  exact isFrame_of_flags (List.not_mem_append (flag_not_mem_header b) (flag_not_mem_stuff _))

/-- The frame of a payload within MAX_PAYLOAD fits `txf` (R61). -/
theorem within_encInfo_txfCap {p : Params} {P : Bytes} (h : within P.length p.maxPayload = true) (b : Bit) :
    within (encInfo b P).length (txfCap p) = true := by
  rw [within_eq_true_iff] at h ⊢
  intro n hn
  obtain ⟨m, hm, rfl⟩ := Option.map_eq_some_iff.1 hn
  have hstuff := length_stuff_le (P ++ [bcc2 P])
  have hP := h m hm
  rw [List.length_append, List.length_singleton] at hstuff
  rw [length_encInfo]
  omega

theorem Sound.refuse {s : State} (h : Sound s) (e : Status) : Sound (refuse e s) := { h with }

/-- Between commands no timer runs. -/
theorem Sound.timerRunning_of_idle {s : State} (h : Sound s) (hidle : s.phase = .idle) : s.timerRunning = false :=
  h.timerRunning_of_untimed (by rw [hidle]; rfl)

/-- The three untimed waits, all the Receiver's, each with its session (R25, R46(e)). -/
inductive UntimedWait : Phase → Sess → Prop where
  | openRxWaitSet : UntimedWait .openRxWaitSet .opening
  | recvCapture : UntimedWait .recvCapture .opened
  | closeRxWaitDisc : UntimedWait .closeRxWaitDisc .closing

/-- A Receiver's command starts its wait with a fresh scanner and no timer. -/
theorem Unphased.sound_of_untimedWait {s : State} (h : Unphased s) (hwait : UntimedWait s.phase s.sess)
    (hrole : s.role = .rx) (htimer : s.timerRunning = false) (herr : s.err = .ok)
    (hscan : s.recState = .idle ∨ s.phase = .recvCapture)
    (hcap : s.phase = .recvCapture → (s.capState = .body ↔ s.capBuf ≠ [])) : Sound s := by
  have hphase : s.phase = .openRxWaitSet ∧ s.sess = .opening ∨ s.phase = .recvCapture ∧ s.sess = .opened ∨
      s.phase = .closeRxWaitDisc ∧ s.sess = .closing := by
    generalize s.phase = p at hwait
    generalize s.sess = q at hwait
    cases hwait <;> decide
  have huntimed : isTimed s.phase = false := by rcases hphase with hp | hp | hp <;> rw [hp.1] <;> rfl
  exact { h with
    retry_le := by simp [huntimed]
    retry_lt := by simp [htimer]
    timed_out := fun _ => htimer
    timer_timed := by simp [htimer]
    opening_iff := by rcases hphase with hp | hp | hp <;> simp [hp]
    transfer_open := by rcases hphase with hp | hp | hp <;> simp [hp]
    closing_iff := by rcases hphase with hp | hp | hp <;> simp [hp]
    cap_body := hcap
    txf_frame := by simp [huntimed]
    rec_ctrl := fun x hx hin => by
      rcases hscan with hr | hp
      · simp [hr] at hin
      · rw [hp] at hx
        cases hx
    role_tx := by rcases hphase with hp | hp | hp <;> simp [hp]
    role_rx := fun _ => hrole
    err_failed := ⟨by rcases hphase with hp | hp | hp <;> simp [hp], fun _ => herr⟩ }

theorem Unphased.openSession {s : State} (h : Unphased s) (r : Role) (n d : Nat) : Unphased (openSession r n d s) :=
  { h with lrfn_nr := (by decide : (1 : Bit) = ~~~ 0) }

theorem Sound.openBody {s : State} (h : Sound s) (hidle : s.phase = .idle) (r : Role) (n d : Nat) :
    Sound (openBody r n d s) := by
  have hsession := h.unphased.openSession r n d
  by_cases hclosed : s.sess = .closed
  · cases r with
    | tx =>
      rw [openBody_tx_of_closed hclosed]
      exact hsession.sound_startTimed (by decide) (within_encSup_txfCap _ _ _) rfl rfl rfl
    | rx =>
      rw [openBody_rx_of_closed hclosed]
      exact Unphased.sound_of_untimedWait { hsession with } .openRxWaitSet rfl (h.timerRunning_of_idle hidle) rfl
        (.inl rfl) nofun
  · rw [openBody_refused hclosed]
    exact h.refuse _

theorem Sound.sendBody {s : State} (h : Sound s) (P : Bytes) : Sound (sendBody P s) := by
  by_cases hlegal : s.sess = .opened ∧ s.role = .tx
  · obtain ⟨hopen, hrole⟩ := hlegal
    cases hfits : within P.length s.params.maxPayload with
    | true =>
      rw [sendBody_of_fits hopen hrole hfits]
      exact h.unphased.sound_startTimed (isFrame_encInfo _ _) (within_encInfo_txfCap hfits _) hopen hrole
        (h.err_failed.2 (by simp [hopen]))
    | false =>
      rw [sendBody_of_tooLong hopen hrole hfits]
      exact h.refuse _
  · rw [sendBody_refused hlegal]
    exact h.refuse _

theorem Sound.receiveBody {s : State} (h : Sound s) (hidle : s.phase = .idle) : Sound (receiveBody s) := by
  by_cases hlegal : s.sess = .opened ∧ s.role = .rx
  · obtain ⟨hopen, hrole⟩ := hlegal
    rw [receiveBody_of_opened hopen hrole]
    refine Unphased.sound_of_untimedWait ⟨h.lrfn_nr, nofun, nofun, h.txf_cap, within_eq_true_iff.2 fun m _ => Nat.zero_le m⟩
      ?_ hrole (h.timerRunning_of_idle hidle) (h.err_failed.2 (by simp [hopen])) (.inr rfl) (by simp)
    exact hopen ▸ .recvCapture
  · rw [receiveBody_refused hlegal]
    exact h.refuse _

theorem Sound.closeBody {s : State} (h : Sound s) (hidle : s.phase = .idle) : Sound (closeBody s) := by
  by_cases hopen : s.sess = .opened
  · have herr : s.err = .ok := h.err_failed.2 (by simp [hopen])
    cases hrole : s.role with
    | tx =>
      rw [closeBody_tx_of_opened hopen hrole]
      exact Unphased.sound_startTimed { h with } (by decide) (within_encSup_txfCap _ _ _) rfl hrole herr
    | rx =>
      rw [closeBody_rx_of_opened hopen hrole]
      exact Unphased.sound_of_untimedWait { h with } .closeRxWaitDisc hrole (h.timerRunning_of_idle hidle) herr
        (.inl rfl) nofun
  · rw [closeBody_refused hopen]
    exact h.refuse _

/-- In `P_IDLE` every command has a step, and it keeps the invariant. -/
theorem Sound.exists_exec_command {s : State} {i : Instr} (h : Sound s) (hc : isCommand i = true)
    (hidle : s.phase = .idle) : ∃ t, exec i s = .next t ∧ Sound t := by
  cases i with
  | nop => exact ⟨s, exec_nop_of_idle hidle, h⟩
  | openCmd r n d => exact ⟨_, exec_openCmd_of_idle hidle r n d, h.openBody hidle r n d⟩
  | sendCmd P => exact ⟨_, exec_sendCmd_of_idle hidle P, h.sendBody P⟩
  | receiveCmd => exact ⟨_, exec_receiveCmd_of_idle hidle, h.receiveBody hidle⟩
  | closeCmd => exact ⟨_, exec_closeCmd_of_idle hidle, h.closeBody hidle⟩
  | reserved5 => exact ⟨_, exec_reserved5_of_idle hidle, h.refuse _⟩
  | reserved6 => exact ⟨_, exec_reserved6_of_idle hidle, h.refuse _⟩
  | reserved7 => exact ⟨_, exec_reserved7_of_idle hidle, h.refuse _⟩
  | _ => cases hc

/-! ### Every input keeps it, and every enabled one has a step -/

theorem Sound.resetRegisters (s : State) : Sound (resetRegisters s) :=
  Unphased.sound_of_idle
    ⟨(by decide : (1 : Bit) = ~~~ 0), nofun, nofun, within_eq_true_iff.2 fun m _ => Nat.zero_le m,
      within_eq_true_iff.2 fun m _ => Nat.zero_le m⟩
    rfl rfl nofun nofun ⟨nofun, fun _ => rfl⟩

theorem Sound.exists_exec {s : State} {i : Instr} (h : Sound s) (hi : isInput i = true)
    (henabled : isCommand i = true → s.phase = .idle) : ∃ t, exec i s = .next t ∧ Sound t := by
  cases hc : isCommand i with
  | true => exact h.exists_exec_command hc (henabled hc)
  | false =>
    obtain ⟨B, hB⟩ | rfl | rfl | rfl := exec_eq_rxBytes_or_event hi hc
    · rw [hB]
      exact h.exists_rxBytes B
    · exact ⟨_, exec_tick s, h.loopCheckIfTimed⟩
    · exact ⟨_, exec_expire s, h.expireFlags⟩
    · exact ⟨_, exec_resetInput s, .resetRegisters s⟩

theorem Good.sound {s : State} (h : Good s) : Sound s := { h.inv, h.coherent with }

/-- Settles O47: a good state is sound, and a sound state has a step for every enabled input, each byte of an arrival
leading to a sound state for the next. -/
theorem everyEnabledInputHasAStep : Obligations.EveryEnabledInputHasAStep := by
  intro s i hgood hi henabled
  obtain ⟨t, ht, -⟩ := hgood.sound.exists_exec hi henabled
  exact ⟨t, ht⟩

/-- The next state of an outcome is unique, so what is known of one is known of any. -/
theorem of_exists_next {r : Res} {P : State → Prop} {t : State} (h : ∃ u, r = .next u ∧ P u) (ht : r = .next t) : P t := by
  obtain ⟨u, hu, hP⟩ := h
  exact Host.Outcome.next.inj (hu.symm.trans ht) ▸ hP

theorem Sound.exec {s t : State} {i : Instr} (h : Sound s) (hi : isInput i = true) (ht : exec i s = .next t) : Sound t :=
  of_exists_next (h.exists_exec hi fun hc => (exec_command hc ht).1) ht

theorem startTimed_inputs (p : TimedPhase) (F : Bytes) (s : State) : (startTimed p F s).inputs = s.inputs := by
  obtain ⟨-, e, -, h⟩ | ⟨-, h⟩ := startTimed_cases p F s <;> rw [h] <;> rfl

theorem CommandEffect.inputs {s t : State} {i : Instr} (h : CommandEffect s i t) : t.inputs = s.inputs := by
  cases h with
  | nop | refused | opensRx | receives | closesRx => rfl
  | opensTx | sends | closesTx => exact startTimed_inputs _ _ _

/-- An arrival keeps the configuration, the pending records and `ret`. -/
theorem rxBytes_keepsConfig {B : Bytes} {s t : State} (h : rxBytes B s = .next t) : KeepsConfig s t :=
  rxBytes_invariant (P := KeepsConfig s)
    (fun _ _ _ hu ht =>
      have hb := (rxInput_effect ht).1
      ⟨hb.role.trans hu.role, hb.ntries.trans hu.ntries, hb.timeout.trans hu.timeout, hb.params.trans hu.params,
        hb.inputs.trans hu.inputs, hb.ret.trans hu.ret⟩)
    ⟨rfl, rfl, rfl, rfl, rfl, rfl⟩ h

theorem expireFlags_inputs (s : State) : (expireFlags s).inputs = s.inputs := by
  unfold expireFlags
  split <;> rfl

/-- No input touches the records that are still pending. -/
theorem exec_inputs {s t : State} {i : Instr} (hi : isInput i = true) (h : exec i s = .next t) : t.inputs = s.inputs := by
  cases hc : isCommand i with
  | true => exact (exec_command hc h).2.inputs
  | false =>
    obtain ⟨B, hB⟩ | ⟨-, rfl⟩ | ⟨-, rfl⟩ | ⟨-, rfl⟩ := exec_event hi hc h
    · exact (rxBytes_keepsConfig hB).inputs
    · exact (tickInput_effect s).1.inputs
    · exact expireFlags_inputs s
    · exact resetRegisters_inputs s

/-! ### Steps (R5, R9) -/

/-- A step runs the record at the head of `inputs`, or, with none presented, polls the channel. -/
theorem step_cases {s t : State} (h : step s = .next t) :
    (∃ r i, r ∈ s.inputs ∧ decode r = .ok i ∧ exec i (dropRecord s) = .next t) ∨ poll s = .next t := by
  unfold step at h
  split at h
  · exact .inr h
  · rename_i i hfetch
    obtain ⟨r, hr, hdec⟩ := Option.map_eq_some_iff.1 hfetch
    exact .inl ⟨r, i, List.mem_of_mem_head? hr, hdec, h⟩
  · cases h

/-- With no record presented the state stays, or the bound is tested, or a byte of the queue is taken. -/
theorem poll_cases {s t : State} (h : poll s = .next t) : t = s ∨ t = tickInput s ∨ takeHead s = .next t := by
  unfold poll at h
  split at h
  · exact .inl (Host.Outcome.next.inj h).symm
  · split at h
    · exact .inr (.inl (Host.Outcome.next.inj h).symm)
    · exact .inr (.inr h)

theorem Sound.poll {s t : State} (h : Sound s) (ht : poll s = .next t) : Sound t := by
  obtain rfl | rfl | ht := poll_cases ht
  · exact h
  · exact h.loopCheckIfTimed
  · exact of_exists_next h.exists_takeHead ht

theorem poll_inputs {s t : State} (h : poll s = .next t) : t.inputs = s.inputs := by
  obtain rfl | rfl | ht := poll_cases h
  · rfl
  · exact (tickInput_effect s).1.inputs
  · exact (takeHead_effect ht).1.inputs

/-- Settles O46: the registers' half is kept by every input and every poll, and a step leaves no record that was not
already pending. -/
theorem stepKeepsGoodStates : Obligations.StepKeepsGoodStates := by
  intro s t hgood hstep
  have hsound := hgood.sound
  obtain ⟨r, i, hr, hdec, hexec⟩ | hpoll := step_cases hstep
  · have hi : isInput i = true := hgood.inputs r hr i hdec
    have ht : Sound t := Sound.exec (s := dropRecord s) { hsound with } hi hexec
    refine ⟨ht.toInv, ht.toCoherent, fun r' hr' => hgood.inputs r' ?_⟩
    rw [exec_inputs hi hexec] at hr'
    exact List.mem_of_mem_tail hr'
  · have ht : Sound t := hsound.poll hpoll
    refine ⟨ht.toInv, ht.toCoherent, fun r' hr' => hgood.inputs r' ?_⟩
    rwa [poll_inputs hpoll] at hr'

/-- Settles O45: reset gives every register its reset value, with no record presented. -/
theorem resetStateIsGood : Obligations.ResetStateIsGood :=
  have h : Sound State.reset := .resetRegisters State.reset
  ⟨h.toInv, h.toCoherent, nofun⟩

end Sys2Proof.Machine

namespace Sys2Proof.Machine

/-! ## The scanners' steps as rows (R146, R155) -/

theorem exec_recStep_of_some {s : State} {x : Expectation} (hx : expectation s.phase = some x) (b : Byte) :
    exec (.recStep b) s = .next (returns (.accept (recOut x b s).accept) (recWrite (recOut x b s) s)) := by
  show execRecStep b s = _
  rw [execRecStep, hx]

/-- Where the phase has no expectation, `RecStep` stops. -/
theorem exec_recStep_of_none {s : State} (hx : expectation s.phase = none) (b : Byte) :
    exec (.recStep b) s = .fault .noExpectation := by
  show execRecStep b s = _
  rw [execRecStep, hx]

theorem exec_capStep (b : Byte) (s : State) :
    exec (.capStep b) s = .next (returns (.body (capOut b s).body) (capWrite (capOut b s) s)) := rfl

/-- Settles O10: `RecStep` by the phase's expectation, `CapStep` in every state. -/
theorem scannerRowsComplete : Obligations.ScannerRowsComplete := by
  refine fun s b => ⟨fun x hx => exec_recStep_of_some hx b, fun hphase => ?_, exec_capStep b s⟩
  have hx : expectation s.phase = none := by rcases hphase with h | h <;> rw [h] <;> rfl
  exact exec_recStep_of_none hx b

/-! ## Outcomes that a relation between states carries over -/

/-- Two outcomes that agree: next states related by `R`, or the same stop. -/
inductive Agree (R : State → State → Prop) : Res → Res → Prop where
  | next {u v : State} (h : R u v) : Agree R (.next u) (.next v)
  | fault (e : Fault) : Agree R (.fault e) (.fault e)
  | refused (e : Refusal) : Agree R (.refused e) (.refused e)

theorem Agree.andThen {R : State → State → Prop} {r r' : Res} {f : State → Res} (h : Agree R r r')
    (hf : ∀ u v, R u v → Agree R (f u) (f v)) : Agree R (andThen r f) (andThen r' f) := by
  cases h with
  | next h => exact hf _ _ h
  | fault e => exact .fault e
  | refused e => exact .refused e

theorem Agree.ite {R : State → State → Prop} {p : Prop} [Decidable p] {a b a' b' : Res} (ht : Agree R a a')
    (hf : Agree R b b') : Agree R (if p then a else b) (if p then a' else b') := by
  split
  · exact ht
  · exact hf

/-! ## What the rules of a byte do not read: the channel's queue and the counters (R43, R63) -/

/-- One more frame written (R181). -/
def countTx (s : State) : State := { s with cntTxFrames := bump s.params s.cntTxFrames }

/-- One more retransmission (R45). -/
def countRetry (s : State) : State := { s with cntRetx := bump s.params s.cntRetx }

/-- `u` with the queue and the counters of `s`. -/
def keepAside (u s : State) : State :=
  { u with rxq := s.rxq, cntTxFrames := s.cntTxFrames, cntRxFrames := s.cntRxFrames, cntRetx := s.cntRetx }

/-- A relation that only sees the queue and the counters, and that writing the other fields or counting keeps. -/
structure Blind (R : State → State → Prop) : Prop where
  aside : ∀ {s t : State}, R s t →
    ∃ q a b c, t = { s with rxq := q, cntTxFrames := a, cntRxFrames := b, cntRetx := c }
  write : ∀ (u : State) {s t : State}, R s t → R (keepAside u s) (keepAside u t)
  countTx : ∀ {s t : State}, R s t → R (countTx s) (countTx t)
  countRx : ∀ {s t : State}, R s t → R (countRx s) (countRx t)
  countRetry : ∀ {s t : State}, R s t → R (countRetry s) (countRetry t)

namespace Blind

variable {R : State → State → Prop} {s t : State}

theorem afterFail (hR : Blind R) (h : R s t) (e : Status) : R (afterFail e s) (afterFail e t) := by
  obtain ⟨q, a, b, c, rfl⟩ := hR.aside h
  exact hR.write (Machine.afterFail e s) h

theorem afterWrite (hR : Blind R) (h : R s t) : R (afterWrite s) (afterWrite t) := by
  have hfirst := hR.countTx h
  have hagain := hR.countTx (hR.countRetry h)
  obtain ⟨q, a, b, c, rfl⟩ := hR.aside h
  unfold Machine.afterWrite retxAfter
  by_cases hretry : 0 < s.retryCnt
  · rw [if_pos hretry, if_pos hretry]
    exact hR.write (Machine.afterWrite s) hagain
  · rw [if_neg hretry, if_neg hretry]
    exact hR.write (Machine.afterWrite s) hfirst

theorem loopCheckIfTimed (hR : Blind R) (h : R s t) : R (loopCheckIfTimed s) (loopCheckIfTimed t) := by
  obtain ⟨q, a, b, c, ht⟩ := hR.aside h
  have hphase : t.phase = s.phase := by rw [ht]
  have hretry : t.retryCnt = s.retryCnt := by rw [ht]
  have hntries : t.ntries = s.ntries := by rw [ht]
  have htimer : t.timerRunning = s.timerRunning := by rw [ht]
  cases he : timeoutError s.phase with
  | none => rwa [loopCheckIfTimed_untimed he, loopCheckIfTimed_untimed (hphase ▸ he)]
  | some e =>
    have he' : timeoutError t.phase = some e := by rw [hphase, he]
    by_cases hbound : s.ntries ≤ s.retryCnt
    · rw [loopCheckIfTimed_of_bound he hbound, loopCheckIfTimed_of_bound he' (by omega)]
      exact hR.afterFail h e
    · cases hrun : s.timerRunning with
      | true => rwa [loopCheckIfTimed_of_running (by omega) hrun, loopCheckIfTimed_of_running (by omega) (htimer ▸ hrun)]
      | false =>
        rw [loopCheckIfTimed_of_stopped he (by omega) hrun, loopCheckIfTimed_of_stopped he' (by omega) (htimer ▸ hrun)]
        exact hR.afterWrite h

theorem startTimed (hR : Blind R) (h : R s t) (p : TimedPhase) (F : Bytes) :
    R (startTimed p F s) (startTimed p F t) := by
  have hstart : R (exchangeStart p F s) (exchangeStart p F t) := by
    obtain ⟨q, a, b, c, rfl⟩ := hR.aside h
    exact hR.write (exchangeStart p F s) h
  exact hR.loopCheckIfTimed hstart

/-! ### Accepts (R193 to R201, R221 to R223) -/

theorem acceptOpenTx (hR : Blind R) (h : R s t) : R (acceptOpenTx s) (acceptOpenTx t) := by
  have hw := hR.write (Machine.acceptOpenTx s) h
  obtain ⟨q, a, b, c, rfl⟩ := hR.aside h
  rw [acceptOpenTx_eq] at hw
  rw [acceptOpenTx_eq, acceptOpenTx_eq]
  exact hw

theorem acceptOpenRx (hR : Blind R) (h : R s t) : R (acceptOpenRx s) (acceptOpenRx t) := by
  have hw := hR.write (Machine.acceptOpenRx s) (hR.countTx h)
  obtain ⟨q, a, b, c, rfl⟩ := hR.aside h
  exact hw

theorem acceptCloseTx (hR : Blind R) (h : R s t) : R (acceptCloseTx s) (acceptCloseTx t) := by
  have hw := hR.write (Machine.acceptCloseTx s) (hR.countTx h)
  obtain ⟨q, a, b, c, rfl⟩ := hR.aside h
  rw [acceptCloseTx_eq] at hw
  rw [acceptCloseTx_eq, acceptCloseTx_eq]
  exact hw

theorem acceptCloseRxUa (hR : Blind R) (h : R s t) : R (acceptCloseRxUa s) (acceptCloseRxUa t) := by
  have hw := hR.write (Machine.acceptCloseRxUa s) h
  obtain ⟨q, a, b, c, rfl⟩ := hR.aside h
  rw [acceptCloseRxUa_eq] at hw
  rw [acceptCloseRxUa_eq, acceptCloseRxUa_eq]
  exact hw

theorem acceptAck (hR : Blind R) (h : R s t) : R (acceptAck s) (acceptAck t) := by
  have hw := hR.write (Machine.acceptAck s) h
  obtain ⟨q, a, b, c, rfl⟩ := hR.aside h
  rw [acceptAck_eq] at hw
  rw [acceptAck_eq, acceptAck_eq]
  exact hw

theorem acceptReject (hR : Blind R) (h : R s t) : R (acceptReject s) (acceptReject t) := by
  have hw := hR.write (afterReject s) h
  obtain ⟨q, a, b, c, ht⟩ := hR.aside h
  have htimer : t.timerRunning = s.timerRunning := by rw [ht]
  cases hrun : s.timerRunning with
  | true =>
    rw [acceptReject_of_running hrun, acceptReject_of_running (htimer.trans hrun)]
    subst ht
    exact hw
  | false => rwa [acceptReject_of_stopped hrun, acceptReject_of_stopped (htimer.trans hrun)]

theorem acceptSend (hR : Blind R) (h : R s t) (k : Byte) : Agree R (acceptSend k s) (acceptSend k t) := by
  have hns : t.ns = s.ns := by
    obtain ⟨q, a, b, c, ht⟩ := hR.aside h
    rw [ht]
  unfold Machine.acceptSend
  rw [hns]
  exact .ite (.next (hR.acceptAck h)) (.ite (.next (hR.acceptReject h)) (.ite (.next h) (.fault _)))

theorem acceptOnly {u v : State} (want k : Byte) (h : R u v) : Agree R (acceptOnly want k u) (acceptOnly want k v) :=
  .ite (.next h) (.fault _)

theorem phase_eq (hR : Blind R) (h : R s t) : t.phase = s.phase := by
  obtain ⟨q, a, b, c, ht⟩ := hR.aside h
  rw [ht]

theorem handleAccept (hR : Blind R) (h : R s t) (k : Byte) : Agree R (handleAccept k s) (handleAccept k t) := by
  unfold Machine.handleAccept
  rw [hR.phase_eq h]
  cases s.phase with
  | openTxWaitUa => exact acceptOnly _ _ (hR.acceptOpenTx h)
  | openRxWaitSet => exact acceptOnly _ _ (hR.acceptOpenRx h)
  | sendWaitAck => exact hR.acceptSend h k
  | closeTxWaitDisc => exact acceptOnly _ _ (hR.acceptCloseTx h)
  | closeRxWaitDisc => exact acceptOnly _ _ (hR.startTimed h _ _)
  | closeRxWaitUa => exact acceptOnly _ _ (hR.acceptCloseRxUa h)
  | idle | recvCapture => exact .fault _

/-! ### Bodies and bytes (R177, R226, R227) -/

theorem rejectBody (hR : Blind R) (h : R s t) (k : Event) : R (rejectBody k s) (rejectBody k t) := by
  have hw := hR.write (Machine.rejectBody k s) (hR.countTx h)
  obtain ⟨q, a, b, c, rfl⟩ := hR.aside h
  exact hw

theorem duplicateBody (hR : Blind R) (h : R s t) : R (duplicateBody s) (duplicateBody t) := by
  have hw := hR.write (Machine.duplicateBody s) (hR.countTx (hR.countRx h))
  obtain ⟨q, a, b, c, rfl⟩ := hR.aside h
  exact hw

theorem deliverBody (hR : Blind R) (h : R s t) (k : Bit) (P : Bytes) : R (deliverBody k P s) (deliverBody k P t) := by
  have hw := hR.write (Machine.deliverBody k P s) (hR.countTx (hR.countRx h))
  obtain ⟨q, a, b, c, rfl⟩ := hR.aside h
  exact hw

theorem processBody (hR : Blind R) (h : R s t) (B : Bytes) (ovf : Bool) :
    R (processBody B ovf s) (processBody B ovf t) := by
  have hlrfn : t.lrfn = s.lrfn := by
    obtain ⟨q, a, b, c, ht⟩ := hR.aside h
    rw [ht]
  cases hdec : decInfo B ovf with
  | headerBad =>
    rw [processBody_of_headerBad hdec, processBody_of_headerBad hdec]
    exact hR.rejectBody h _
  | escapeBad =>
    rw [processBody_of_escapeBad hdec, processBody_of_escapeBad hdec]
    exact hR.rejectBody h _
  | checksumBad =>
    rw [processBody_of_checksumBad hdec, processBody_of_checksumBad hdec]
    exact hR.rejectBody h _
  | good k P =>
    by_cases hk : k = s.lrfn
    · rw [processBody_of_duplicate hdec hk, processBody_of_duplicate hdec (hk.trans hlrfn.symm)]
      exact hR.duplicateBody h
    · rw [processBody_of_new hdec hk, processBody_of_new hdec (hlrfn ▸ hk)]
      exact hR.deliverBody h k P

theorem recWrite (hR : Blind R) (h : R s t) (o : RecOut) : R (recWrite o s) (recWrite o t) := by
  have hw := hR.write (Machine.recWrite o s) h
  obtain ⟨q, a, b, c, rfl⟩ := hR.aside h
  exact hw

theorem capWrite (hR : Blind R) (h : R s t) (o : CapOut) : R (capWrite o s) (capWrite o t) := by
  have hw := hR.write (Machine.capWrite o s) h
  obtain ⟨q, a, b, c, rfl⟩ := hR.aside h
  exact hw

theorem recOut_eq (hR : Blind R) (h : R s t) (x : Expectation) (k : Byte) : recOut x k t = recOut x k s := by
  obtain ⟨q, a, b, c, rfl⟩ := hR.aside h
  rfl

theorem capOut_eq (hR : Blind R) (h : R s t) (k : Byte) : capOut k t = capOut k s := by
  obtain ⟨q, a, b, c, rfl⟩ := hR.aside h
  rfl

theorem rxSupervision (hR : Blind R) (h : R s t) (x : Expectation) (k : Byte) :
    Agree R (rxSupervision x k s) (rxSupervision x k t) := by
  have hrec := hR.recWrite h (recOut x k s)
  have hout := hR.recOut_eq h x k
  cases ha : (recOut x k s).accept with
  | none =>
    rw [rxSupervision_none ha, rxSupervision_none (hout ▸ ha), hout]
    exact .next (hR.loopCheckIfTimed hrec)
  | some c =>
    rw [rxSupervision_some ha, rxSupervision_some (hout ▸ ha), hout]
    exact (hR.handleAccept (hR.countRx hrec) c).andThen fun u v huv => .next (hR.loopCheckIfTimed huv)

theorem rxCapture (hR : Blind R) (h : R s t) (k : Byte) : R (rxCapture k s) (rxCapture k t) := by
  have hcap := hR.capWrite h (capOut k s)
  have hout := hR.capOut_eq h k
  cases hbody : (capOut k s).body with
  | none =>
    rw [rxCapture_of_none hbody, rxCapture_of_none (hout ▸ hbody), hout]
    exact hcap
  | some body =>
    have hclosed : capOut k s = ⟨.idle, [], false, some body⟩ := capNext_eq_of_body hbody
    rw [hclosed] at hcap
    rw [rxCapture_of_some hbody, rxCapture_of_some (hout ▸ hbody)]
    exact hR.processBody hcap _ _

/-- A byte is taken alike in two states that such a relation holds between. -/
theorem rxTaken (hR : Blind R) (h : R s t) (k : Byte) : Agree R (rxTaken k s) (rxTaken k t) := by
  unfold Machine.rxTaken
  rw [hR.phase_eq h]
  cases expectation s.phase with
  | some x => exact hR.rxSupervision h x k
  | none =>
    refine .next ?_
    split
    · exact hR.rxCapture h k
    · exact h

end Blind

/-! ## The statistics counters influence nothing but themselves (R43) -/

/-- Two states with the same other fields, given by their counters. -/
def withCounters (a b c : Nat) (s : State) : State := { s with cntTxFrames := a, cntRxFrames := b, cntRetx := c }

theorem sameButCounters_withCounters (a b c : Nat) (s : State) : SameButCounters s (withCounters a b c s) := rfl

theorem SameButCounters.exists_withCounters {s t : State} (h : SameButCounters s t) :
    ∃ a b c, t = withCounters a b c s := ⟨_, _, _, h⟩

theorem blind_sameButCounters : Blind SameButCounters where
  aside h := ⟨_, _, _, _, h⟩
  write u := by
    intro s t h
    obtain ⟨a, b, c, rfl⟩ := h.exists_withCounters
    rfl
  countTx h := by
    obtain ⟨a, b, c, rfl⟩ := h.exists_withCounters
    rfl
  countRx h := by
    obtain ⟨a, b, c, rfl⟩ := h.exists_withCounters
    rfl
  countRetry h := by
    obtain ⟨a, b, c, rfl⟩ := h.exists_withCounters
    rfl

theorem takeHead_of_idle {s : State} (h : s.phase = .idle) : takeHead s = .next s := if_pos h

theorem takeHead_of_empty {s : State} (hq : s.rxq = []) : takeHead s = .next s := by
  unfold takeHead
  rw [hq]
  exact ite_self _

/-- Outside `P_IDLE` the oldest byte of the queue is the one taken. -/
theorem takeHead_of_cons {s : State} {b : Byte} {q : Bytes} (h : s.phase ≠ .idle) (hq : s.rxq = b :: q) :
    takeHead s = rxTaken b { s with rxq := q } := by
  unfold takeHead
  rw [if_neg h, hq]

section
variable {s t u v : State}

theorem SameButCounters.takeHead (h : SameButCounters s t) : Agree SameButCounters (takeHead s) (takeHead t) := by
  obtain ⟨a, b, c, rfl⟩ := h.exists_withCounters
  by_cases hidle : s.phase = .idle
  · rw [takeHead_of_idle hidle, takeHead_of_idle (s := withCounters a b c s) hidle]
    exact .next h
  · cases hq : s.rxq with
    | nil =>
      rw [takeHead_of_empty hq, takeHead_of_empty (s := withCounters a b c s) hq]
      exact .next h
    | cons k q =>
      rw [takeHead_of_cons hidle hq, takeHead_of_cons (s := withCounters a b c s) hidle hq]
      exact blind_sameButCounters.rxTaken (sameButCounters_withCounters a b c { s with rxq := q }) k

theorem SameButCounters.rxInput (h : SameButCounters s t) (k : Byte) :
    Agree SameButCounters (rxInput k s) (rxInput k t) := by
  obtain ⟨a, b, c, rfl⟩ := h.exists_withCounters
  exact (sameButCounters_withCounters a b c { s with rxq := s.rxq ++ [k] }).takeHead

theorem SameButCounters.rxBytes (h : SameButCounters s t) (B : Bytes) :
    Agree SameButCounters (rxBytes B s) (rxBytes B t) := by
  induction B generalizing s t with
  | nil => exact .next h
  | cons k B ih => exact (h.rxInput k).andThen fun u v huv => ih huv

theorem SameButCounters.expireFlags (h : SameButCounters s t) : SameButCounters (expireFlags s) (expireFlags t) := by
  obtain ⟨a, b, c, rfl⟩ := h.exists_withCounters
  cases hrun : s.timerRunning with
  | true =>
    rw [expireFlags_of_running hrun, expireFlags_of_running (s := withCounters a b c s) hrun]
    exact sameButCounters_withCounters a b c _
  | false => rwa [expireFlags_of_stopped hrun, expireFlags_of_stopped (s := withCounters a b c s) hrun]

/-! ### Commands -/

theorem SameButCounters.whenReady (h : SameButCounters s t) (huv : SameButCounters u v) :
    Agree SameButCounters (whenReady s u) (whenReady t v) := by
  unfold Machine.whenReady
  rw [blind_sameButCounters.phase_eq h]
  exact .ite (.next huv) (.fault _)

theorem SameButCounters.refuse (h : SameButCounters s t) (e : Status) : SameButCounters (refuse e s) (refuse e t) := by
  obtain ⟨a, b, c, rfl⟩ := h.exists_withCounters
  exact sameButCounters_withCounters a b c (Machine.refuse e s)

/-- OPEN clears the counters, so what they were does not matter. -/
theorem SameButCounters.openBody (h : SameButCounters s t) (r : Role) (n d : Nat) :
    SameButCounters (openBody r n d s) (openBody r n d t) := by
  have hrefuse := h.refuse .illegalCommand
  obtain ⟨a, b, c, rfl⟩ := h.exists_withCounters
  by_cases hclosed : s.sess = .closed
  · have hsession := sameButCounters_withCounters 0 0 0 (openSession r n d s)
    cases r with
    | tx =>
      rw [openBody_tx_of_closed hclosed, openBody_tx_of_closed (s := withCounters a b c s) hclosed]
      exact blind_sameButCounters.startTimed hsession _ _
    | rx =>
      rw [openBody_rx_of_closed hclosed, openBody_rx_of_closed (s := withCounters a b c s) hclosed]
      exact sameButCounters_withCounters 0 0 0 _
  · rwa [openBody_refused hclosed, openBody_refused (s := withCounters a b c s) hclosed]

theorem SameButCounters.sendBody (h : SameButCounters s t) (P : Bytes) :
    SameButCounters (sendBody P s) (sendBody P t) := by
  have hsend := blind_sameButCounters.startTimed h .sendWaitAck (encInfo s.ns P)
  have hillegal := h.refuse .illegalCommand
  have hlong := h.refuse .payloadTooLong
  obtain ⟨a, b, c, rfl⟩ := h.exists_withCounters
  by_cases hlegal : s.sess = .opened ∧ s.role = .tx
  · obtain ⟨hopen, hrole⟩ := hlegal
    cases hfits : within P.length s.params.maxPayload with
    | true => rwa [sendBody_of_fits hopen hrole hfits, sendBody_of_fits (s := withCounters a b c s) hopen hrole hfits]
    | false =>
      rwa [sendBody_of_tooLong hopen hrole hfits, sendBody_of_tooLong (s := withCounters a b c s) hopen hrole hfits]
  · rwa [sendBody_refused hlegal, sendBody_refused (s := withCounters a b c s) hlegal]

theorem SameButCounters.receiveBody (h : SameButCounters s t) : SameButCounters (receiveBody s) (receiveBody t) := by
  have hillegal := h.refuse .illegalCommand
  obtain ⟨a, b, c, rfl⟩ := h.exists_withCounters
  by_cases hlegal : s.sess = .opened ∧ s.role = .rx
  · obtain ⟨hopen, hrole⟩ := hlegal
    rw [receiveBody_of_opened hopen hrole, receiveBody_of_opened (s := withCounters a b c s) hopen hrole]
    exact sameButCounters_withCounters a b c _
  · rwa [receiveBody_refused hlegal, receiveBody_refused (s := withCounters a b c s) hlegal]

theorem SameButCounters.closeBody (h : SameButCounters s t) : SameButCounters (closeBody s) (closeBody t) := by
  have hillegal := h.refuse .illegalCommand
  obtain ⟨a, b, c, rfl⟩ := h.exists_withCounters
  have hclosing := sameButCounters_withCounters a b c { s with sess := .closing }
  by_cases hopen : s.sess = .opened
  · cases hrole : s.role with
    | tx =>
      rw [closeBody_tx_of_opened hopen hrole, closeBody_tx_of_opened (s := withCounters a b c s) hopen hrole]
      exact blind_sameButCounters.startTimed hclosing _ _
    | rx =>
      rw [closeBody_rx_of_opened hopen hrole, closeBody_rx_of_opened (s := withCounters a b c s) hopen hrole]
      exact sameButCounters_withCounters a b c _
  · rwa [closeBody_refused hopen, closeBody_refused (s := withCounters a b c s) hopen]

/-! ### Procedures, accepts and bodies -/

theorem SameButCounters.returns (h : SameButCounters s t) (r : Returned) : SameButCounters (returns r s) (returns r t) := by
  obtain ⟨a, b, c, rfl⟩ := h.exists_withCounters
  exact sameButCounters_withCounters a b c (Machine.returns r s)

theorem SameButCounters.recStep (h : SameButCounters s t) (k : Byte) :
    Agree SameButCounters (exec (.recStep k) s) (exec (.recStep k) t) := by
  have hphase := blind_sameButCounters.phase_eq h
  cases hx : expectation s.phase with
  | none =>
    rw [exec_recStep_of_none hx, exec_recStep_of_none (hphase ▸ hx)]
    exact .fault _
  | some x =>
    rw [exec_recStep_of_some hx, exec_recStep_of_some (hphase ▸ hx), blind_sameButCounters.recOut_eq h]
    exact .next ((blind_sameButCounters.recWrite h _).returns _)

theorem SameButCounters.capStep (h : SameButCounters s t) (k : Byte) :
    Agree SameButCounters (exec (.capStep k) s) (exec (.capStep k) t) := by
  rw [exec_capStep, exec_capStep, blind_sameButCounters.capOut_eq h]
  exact .next ((blind_sameButCounters.capWrite h _).returns _)

theorem SameButCounters.cancelTimer (h : SameButCounters s t) : SameButCounters (cancelTimer s) (cancelTimer t) := by
  obtain ⟨a, b, c, rfl⟩ := h.exists_withCounters
  rw [cancelTimer_eq, cancelTimer_eq]
  exact sameButCounters_withCounters a b c _

theorem SameButCounters.writeFrame (h : SameButCounters s t) (F : Bytes) :
    SameButCounters (writeFrame F s) (writeFrame F t) := by
  obtain ⟨a, b, c, rfl⟩ := h.exists_withCounters
  exact sameButCounters_withCounters (bump s.params a) b c (Machine.writeFrame F s)

theorem SameButCounters.inPhase (h : SameButCounters s t) (p : Phase) {r r' : Res} (hr : Agree SameButCounters r r') :
    Agree SameButCounters (inPhase p s r) (inPhase p t r') := by
  unfold Machine.inPhase
  rw [blind_sameButCounters.phase_eq h]
  exact .ite hr (.fault _)

theorem agree_bodyWith {R : State → State → Prop} (huv : R u v) (want got : DecResult) :
    Agree R (bodyWith want got u) (bodyWith want got v) := .ite (.next huv) (.fault _)

theorem SameButCounters.execBodyDuplicate (h : SameButCounters s t) (B : Bytes) :
    Agree SameButCounters (execBodyDuplicate B s) (execBodyDuplicate B t) := by
  refine h.inPhase _ ?_
  have hdup := blind_sameButCounters.duplicateBody h
  obtain ⟨a, b, c, rfl⟩ := h.exists_withCounters
  cases decInfo B false with
  | good k P => exact .ite (.next hdup) (.fault _)
  | headerBad | escapeBad | checksumBad => exact .fault _

theorem SameButCounters.execBodyNew (h : SameButCounters s t) (B : Bytes) :
    Agree SameButCounters (execBodyNew B s) (execBodyNew B t) := by
  refine h.inPhase _ ?_
  have hnew := blind_sameButCounters.deliverBody h
  obtain ⟨a, b, c, rfl⟩ := h.exists_withCounters
  cases decInfo B false with
  | good k P => exact .ite (.fault _) (.next (hnew k P))
  | headerBad | escapeBad | checksumBad => exact .fault _

theorem SameButCounters.exec (h : SameButCounters s t) (i : Instr) :
    Agree SameButCounters (exec i s) (exec i t) := by
  have hb := blind_sameButCounters
  cases i with
  | set | uaRx | uaTx | discTx | discRx | rr0 | rr1 | rej0 | rej1 => exact h.rxBytes _
  | i0 | i1 | rrS | rejS | iS | escFlag | escEsc => exact h.rxBytes _
  | nop => exact h.whenReady h
  | openCmd r n d => exact h.whenReady (h.openBody r n d)
  | sendCmd P => exact h.whenReady (h.sendBody P)
  | receiveCmd => exact h.whenReady h.receiveBody
  | closeCmd => exact h.whenReady h.closeBody
  | reserved5 | reserved6 | reserved7 => exact h.whenReady (h.refuse _)
  | rxbyteSup k | rxbyteCap k => exact h.rxInput k
  | tick | loopCheck => exact .next (hb.loopCheckIfTimed h)
  | expire => exact .next h.expireFlags
  | resetInput =>
    obtain ⟨a, b, c, rfl⟩ := h.exists_withCounters
    exact .next (sameButCounters_withCounters 0 0 0 _)
  | bcc1 | bcc2 | stuff | destuff | encSup | encInfo | decInfo => exact .next (h.returns _)
  | recStep k => exact h.recStep k
  | capStep k => exact h.capStep k
  | startTimed p F => exact .next (hb.startTimed h p F)
  | cancelTimer => exact .next h.cancelTimer
  | fail e =>
    rw [exec_fail, exec_fail]
    exact .next (hb.afterFail h e)
  | writeFrame F => exact .next (h.writeFrame F)
  | handleAccept k => exact hb.handleAccept h k
  | processBody B ovf => exact .next (hb.processBody h B ovf)
  | acceptUaOpenTx => exact h.inPhase _ (.next (hb.acceptOpenTx h))
  | acceptSetOpenRx => exact h.inPhase _ (.next (hb.acceptOpenRx h))
  | acceptDiscCloseTx => exact h.inPhase _ (.next (hb.acceptCloseTx h))
  | acceptDiscCloseRx => exact h.inPhase _ (.next (hb.startTimed h _ _))
  | acceptUaCloseRx => exact h.inPhase _ (.next (hb.acceptCloseRxUa h))
  | acceptRrNext => exact h.inPhase _ (.next (hb.acceptAck h))
  | acceptRej => exact h.inPhase _ (.next (hb.acceptReject h))
  | acceptRrSame => exact h.inPhase _ (.next h)
  | bodyHeaderBad | bodyEscapeBad | bodyChecksumBad =>
    exact h.inPhase _ (agree_bodyWith (hb.rejectBody h _) _ _)
  | bodyDuplicate B => exact h.execBodyDuplicate B
  | bodyNew B => exact h.execBodyNew B

end

/-- Settles O50: every operation carries the relation over, so every row does, and agreeing outcomes are what the
statement asks for. -/
theorem countersAreNeverRead : Obligations.CountersAreNeverRead := by
  intro s t i h
  have hexec := h.exec i
  refine ⟨fun u hu => ?_, fun e he => ?_⟩
  · rw [hu] at hexec
    generalize exec i t = r at hexec
    cases hexec with
    | next huv => exact ⟨_, rfl, huv⟩
  · rw [he] at hexec
    generalize exec i t = r at hexec
    cases hexec
    rfl

end Sys2Proof.Machine

namespace Sys2Proof.Machine

/-! ## The channel's queue (R63) -/

/-- Taking a byte does not look at what is queued behind it. -/
theorem blind_queue (q : Bytes) : Blind fun s t => t = { s with rxq := q } where
  aside h := ⟨q, _, _, _, h⟩
  write u := by rintro s t rfl; rfl
  countTx := by rintro s t rfl; rfl
  countRx := by rintro s t rfl; rfl
  countRetry := by rintro s t rfl; rfl

theorem Agree.eq_andThen {g : State → State} {r r' : Res} (h : Agree (fun u v => v = g u) r r') :
    r' = Machine.andThen r fun t => .next (g t) := by
  cases h with
  | next h => exact congrArg Host.Outcome.next h
  | fault e => rfl
  | refused e => rfl

/-- The bytes queued behind the one taken stay queued. -/
theorem rxTaken_withQueue (b : Byte) (q : Bytes) (s : State) :
    rxTaken b { s with rxq := q } = andThen (rxTaken b s) fun t => .next { t with rxq := q } :=
  ((blind_queue q).rxTaken (s := s) rfl b).eq_andThen

section
variable {s : State}

/-- A byte that arrives behind others waits, and the oldest is taken as if it stood alone. -/
theorem rxInput_of_queued {h : Byte} {q : Bytes} (hidle : s.phase ≠ .idle) (hq : s.rxq = h :: q) (b : Byte) :
    rxInput b s = andThen (rxInput h { s with rxq := [] }) fun t => .next { t with rxq := q ++ [b] } := by
  have htake : rxInput b s = rxTaken h { s with rxq := q ++ [b] } :=
    takeHead_of_cons (s := { s with rxq := s.rxq ++ [b] }) hidle (by simp [hq])
  rw [htake, rxInput_fresh (s := { s with rxq := [] }) hidle rfl]
  exact rxTaken_withQueue h (q ++ [b]) { s with rxq := [] }

/-- In `P_IDLE` an arrival of any length waits. -/
theorem rxBytes_of_idle (hidle : s.phase = .idle) (B : Bytes) :
    rxBytes B s = .next { s with rxq := s.rxq ++ B } := by
  induction B generalizing s with
  | nil => simp
  | cons b B ih =>
    rw [rxBytes_cons, rxInput_idle hidle, andThen_next, ih (s := { s with rxq := s.rxq ++ [b] }) hidle]
    simp

end

/-- Settles O36: in `P_IDLE` every arrival is appended to the queue; elsewhere the head is taken, whatever is queued
behind it. -/
theorem bytesAreTakenOldestFirst : Obligations.BytesAreTakenOldestFirst := by
  refine ⟨fun s b hidle => ⟨rxInput_idle hidle b, rxInput_idle hidle b⟩, fun s b h q hidle hq =>
    ⟨rxInput_of_queued hidle hq b, rxInput_of_queued hidle hq b⟩, fun s i harr hidle => ?_⟩
  rw [exec_of_isArrival harr, rxBytes_of_idle hidle]

/-! ## One step: the record at the head, or what the channel offers (R5, R9, R14) -/

section
variable {s : State}

theorem step_of_ok {r : Record} {rest : List Record} {i : Instr} (hin : s.inputs = r :: rest) (hdec : decode r = .ok i) :
    step s = exec i { s with inputs := rest } := by
  have hfetch : fetch s = some (.ok i) := by simp [fetch, hin, hdec]
  have hdrop : dropRecord s = { s with inputs := rest } := by simp [dropRecord, hin]
  rw [step, hfetch, ← hdrop]

theorem step_of_error {r : Record} {rest : List Record} {e : DecodeError} (hin : s.inputs = r :: rest)
    (hdec : decode r = .error e) : step s = .refused (.undecodable e) := by
  have hfetch : fetch s = some (.error e) := by simp [fetch, hin, hdec]
  rw [step, hfetch]

theorem step_of_noRecord (hin : s.inputs = []) : step s = poll s := by
  have hfetch : fetch s = none := by simp [fetch, hin]
  rw [step, hfetch]

theorem poll_of_idle (hidle : s.phase = .idle) : poll s = .next s := if_pos hidle

theorem poll_of_empty (hidle : s.phase ≠ .idle) (hq : s.rxq = []) : poll s = .next (tickInput s) := by
  rw [poll, if_neg hidle, hq]

theorem poll_of_cons {b : Byte} {q : Bytes} (hidle : s.phase ≠ .idle) (hq : s.rxq = b :: q) :
    poll s = andThen (rxInput b { s with rxq := [] }) fun t => .next { t with rxq := q } := by
  rw [rxInput_fresh (s := { s with rxq := [] }) hidle rfl]
  calc poll s
    _ = takeHead s := by rw [poll, if_neg hidle, hq]
    _ = rxTaken b { s with rxq := q } := takeHead_of_cons hidle hq
    _ = _ := rxTaken_withQueue b q { s with rxq := [] }

end

theorem decode_of_decodeTableWord {nbits w : Nat} {i : Instr} (h : decodeTableWord nbits w = some i) :
    decode (tableRecord nbits w) = .ok i := by
  unfold decodeTableWord at h
  split at h
  · rename_i j hdec
    rw [hdec, Option.some.inj h]
  · cases h

/-- Settles O59: `step` by what the decoder says of the record at the head; a table word is such a record. -/
theorem stepRunsTheDecodedInstruction : Obligations.StepRunsTheDecodedInstruction :=
  ⟨fun _ _ _ _ => step_of_ok,
    fun s _ _ _ hword => step_of_ok (s := s.withFetchWord _ _) rfl (decode_of_decodeTableWord hword),
    fun _ _ _ _ => step_of_error⟩

/-- Settles O60: with no record a step is `poll`, by the phase and the queue. -/
theorem stepWithoutARecordReadsTheChannel : Obligations.StepWithoutARecordReadsTheChannel := by
  intro s hin
  rw [step_of_noRecord hin]
  exact ⟨poll_of_idle, poll_of_empty, fun _ _ => poll_of_cons⟩

/-! ## Rows outside their context (R9, R11(d), R206, R228 to R232) -/

section
variable {s : State}

theorem whenReady_of_busy (h : s.phase ≠ .idle) (t : State) : whenReady s t = .fault .commandNotEnabled := if_neg h

/-- Outside `P_IDLE` the host has no step (R11(d)). -/
theorem exec_command_of_busy {i : Instr} (hc : isCommand i = true) (h : s.phase ≠ .idle) :
    exec i s = .fault .commandNotEnabled := by
  cases i with
  | nop | openCmd | sendCmd | receiveCmd | closeCmd | reserved5 | reserved6 | reserved7 => exact whenReady_of_busy h _
  | _ => cases hc

theorem inPhase_of_ne {p : Phase} (h : s.phase ≠ p) (r : Res) : inPhase p s r = .fault .acceptNotInPhase := if_neg h

theorem bodyWith_of_ne {want got : DecResult} (h : got ≠ want) (t : State) :
    bodyWith want got t = .fault .bodyNotOfRow := if_neg h

theorem exec_bodyDuplicate_of_other {B : Bytes} (hphase : s.phase = .recvCapture)
    (h : ∀ P, decInfo B false ≠ .good s.lrfn P) : exec (.bodyDuplicate B) s = .fault .bodyNotOfRow := by
  refine (inPhase_of_eq hphase _).trans ?_
  cases hdec : decInfo B false with
  | good b P => exact if_neg fun hb : b = s.lrfn => h P (hb ▸ hdec)
  | headerBad | escapeBad | checksumBad => rfl

theorem eq_or_eq_not : ∀ b n : Bit, b = n ∨ b = ~~~ n := by decide

theorem exec_bodyNew_of_other {B : Bytes} (hphase : s.phase = .recvCapture)
    (h : ∀ P, decInfo B false ≠ .good (~~~ s.lrfn) P) : exec (.bodyNew B) s = .fault .bodyNotOfRow := by
  refine (inPhase_of_eq hphase _).trans ?_
  cases hdec : decInfo B false with
  | good b P => exact if_pos ((eq_or_eq_not b s.lrfn).resolve_right fun hb => h P (hb ▸ hdec))
  | headerBad | escapeBad | checksumBad => rfl

theorem timeoutError_of_untimed {p : Phase} (h : isTimed p = false) : timeoutError p = none :=
  Option.isNone_iff_eq_none.1 (by simpa [isTimed] using h)

end

/-- Settles O30: each row tests its phase first, then its body. -/
theorem rowsStopWhereTheSpecGivesNoStep : Obligations.RowsStopWhereTheSpecGivesNoStep := by
  refine fun s i b B ovf => ⟨exec_command_of_busy, fun huntimed => ?_, fun h => inPhase_of_ne h _, fun h => inPhase_of_ne h _,
    fun h => inPhase_of_ne h _, fun h => inPhase_of_ne h _, fun h => inPhase_of_ne h _,
    fun h => ⟨inPhase_of_ne h _, inPhase_of_ne h _, inPhase_of_ne h _⟩,
    fun h => ⟨inPhase_of_ne h _, inPhase_of_ne h _, inPhase_of_ne h _, inPhase_of_ne h _, inPhase_of_ne h _⟩,
    fun hphase => ⟨fun h => ?_, fun h => ?_, fun h => ?_, exec_bodyDuplicate_of_other hphase,
      exec_bodyNew_of_other hphase⟩⟩
  · rw [exec_loopCheck, loopCheckIfTimed_untimed (timeoutError_of_untimed huntimed)]
  all_goals exact (inPhase_of_eq hphase _).trans (bodyWith_of_ne h _)

/-! ## The dispatch of an Accept (R206) -/

section
variable {s : State} {c : Byte}

theorem acceptOnly_of_eq {want : Byte} (h : c = want) (t : State) : acceptOnly want c t = .next t := if_pos h

theorem acceptOnly_of_ne {want : Byte} (h : c ≠ want) (t : State) : acceptOnly want c t = .fault .acceptNotExpected :=
  if_neg h

theorem eq_zero_or_one : ∀ b : Bit, b = 0 ∨ b = 1 := by decide

theorem handleAccept_openTxWaitUa (h : s.phase = .openTxWaitUa) (hc : c = cUa) :
    handleAccept c s = .next (acceptOpenTx s) := by
  rw [handleAccept, h]
  exact acceptOnly_of_eq hc _

theorem handleAccept_openRxWaitSet (h : s.phase = .openRxWaitSet) (hc : c = cSet) :
    handleAccept c s = .next (acceptOpenRx s) := by
  rw [handleAccept, h]
  exact acceptOnly_of_eq hc _

theorem handleAccept_closeTxWaitDisc (h : s.phase = .closeTxWaitDisc) (hc : c = cDisc) :
    handleAccept c s = .next (acceptCloseTx s) := by
  rw [handleAccept, h]
  exact acceptOnly_of_eq hc _

theorem handleAccept_closeRxWaitDisc (h : s.phase = .closeRxWaitDisc) (hc : c = cDisc) :
    handleAccept c s = .next (startTimed .closeRxWaitUa (encSup aRx cDisc) s) := by
  rw [handleAccept, h]
  exact acceptOnly_of_eq hc _

theorem handleAccept_closeRxWaitUa (h : s.phase = .closeRxWaitUa) (hc : c = cUa) :
    handleAccept c s = .next (acceptCloseRxUa s) := by
  rw [handleAccept, h]
  exact acceptOnly_of_eq hc _

/-- In the reply wait of SEND, RR of the other bit acknowledges (R221). -/
theorem handleAccept_rrNext (h : s.phase = .sendWaitAck) (hc : c = cRR (~~~ s.ns)) :
    handleAccept c s = .next (acceptAck s) := by
  rw [handleAccept_sendWaitAck h]
  exact if_pos hc

/-- In the reply wait of SEND, REJ of either bit rejects (R222). -/
theorem handleAccept_rej (h : s.phase = .sendWaitAck) (b : Bit) (hc : c = cRej b) :
    handleAccept c s = .next (acceptReject s) := by
  have hrr : c ≠ cRR (~~~ s.ns) := hc ▸ (cRR_ne_cRej _ _).symm
  have hrej : c = cRej 0 ∨ c = cRej 1 := by
    rcases eq_zero_or_one b with rfl | rfl
    · exact .inl hc
    · exact .inr hc
  rw [handleAccept_sendWaitAck h, acceptSend, if_neg hrr, if_pos hrej]

theorem cRR_mem_replyCtrls : ∀ b : Bit, cRR b ∈ [cRR 0, cRR 1, cRej 0, cRej 1] := by decide

/-- Any control byte that the phase does not expect stops the dispatch. -/
theorem handleAccept_of_unexpected (h : ∀ x, expectation s.phase = some x → c ∉ x.ctrls) :
    handleAccept c s = .fault .acceptNotExpected := by
  unfold handleAccept
  generalize s.phase = p at h ⊢
  cases p
  case idle | recvCapture => rfl
  case sendWaitAck =>
    have hc : c ∉ [cRR 0, cRR 1, cRej 0, cRej 1] := h _ rfl
    have hrr : ∀ b, c ≠ cRR b := fun b hb => hc (hb ▸ cRR_mem_replyCtrls b)
    have hrej : ¬ (c = cRej 0 ∨ c = cRej 1) := by
      rintro (rfl | rfl) <;> exact hc (by decide)
    exact (if_neg (hrr _)).trans ((if_neg hrej).trans (if_neg (hrr _)))
  all_goals exact acceptOnly_of_ne (fun hc => h _ rfl (List.mem_singleton.2 hc)) _

end

/-- Settles O31: one lemma for each row of R206's table, and one for every other combination. -/
theorem handleAcceptDispatchesOnPhase : Obligations.HandleAcceptDispatchesOnPhase := by
  refine fun s c => ⟨fun h hc => ?_, fun h hc => ?_, fun h hc => ?_, fun h hc => ?_, fun h hc => ?_, fun h hns => ⟨?_, ?_⟩,
    fun h hns => ⟨?_, ?_⟩, fun h => ⟨?_, ?_⟩, handleAccept_of_unexpected⟩
  · exact (handleAccept_openTxWaitUa h hc).trans (inPhase_of_eq h _).symm
  · exact (handleAccept_openRxWaitSet h hc).trans (inPhase_of_eq h _).symm
  · exact (handleAccept_closeTxWaitDisc h hc).trans (inPhase_of_eq h _).symm
  · exact (handleAccept_closeRxWaitDisc h hc).trans (inPhase_of_eq h _).symm
  · exact (handleAccept_closeRxWaitUa h hc).trans (inPhase_of_eq h _).symm
  · exact (handleAccept_rrNext h (by rw [hns]; decide)).trans (inPhase_of_eq h _).symm
  · exact handleAccept_rrSame h (by rw [hns]; decide)
  · exact (handleAccept_rrNext h (by rw [hns]; decide)).trans (inPhase_of_eq h _).symm
  · exact handleAccept_rrSame h (by rw [hns]; decide)
  · exact (handleAccept_rej h 0 (by decide)).trans (inPhase_of_eq h _).symm
  · exact (handleAccept_rej h 1 (by decide)).trans (inPhase_of_eq h _).symm

end Sys2Proof.Machine

namespace Sys2Proof.Machine

/-! ## The codec rows and the round trip of an I frame (R120 to R127) -/

/-- Settles O7: each row returns its function's value into `ret` and nothing else. -/
theorem codecRowsReturnTheirFunction : Obligations.CodecRowsReturnTheirFunction :=
  fun _ _ _ _ _ _ => ⟨rfl, rfl, rfl, rfl, rfl, rfl, rfl⟩

/-- The control byte of an I frame is one of two (R85). -/
theorem cI_eq : ∀ b : Bit, cI b = 0x00 ∨ cI b = 0x40 := by decide

theorem seqOfI_cI : ∀ b : Bit, seqOfI (cI b) = b := by decide

theorem decInfo_encInfo (b : Bit) (P : Bytes) : decInfo ((encInfo b P).drop 1).dropLast false = .good b P := by
  rw [encInfo_drop_dropLast, decInfo_destuffed (cI_eq b) (destuff_stuff _), checkTail_append_singleton, seqOfI_cI]
  exact if_pos rfl

theorem eq_of_checkTail_eq_good {s b : Bit} {D P : Bytes} (h : checkTail s D = .good b P) : b = s := by
  rcases List.eq_nil_or_concat D with rfl | ⟨E, k, rfl⟩
  · cases h
  · rw [List.concat_eq_append, checkTail_append_singleton] at h
    split at h
    · exact (DecResult.good.inj h).1.symm
    · cases h

/-- A good body did not overflow, and its header is that of an I frame. -/
theorem decInfo_eq_good {B : Bytes} {ovf : Bool} {b : Bit} {P : Bytes} (h : decInfo B ovf = .good b P) :
    ovf = false ∧ ∃ c S, B = aTx :: c :: bcc1 aTx c :: S ∧ (c = 0x00 ∨ c = 0x40) ∧ b = seqOfI c := by
  cases ovf with
  | true =>
    rw [decInfo_overflow] at h
    cases h
  | false =>
    refine ⟨rfl, ?_⟩
    rcases Nat.lt_or_ge B.length 3 with hshort | hlong
    · rw [decInfo_short hshort] at h
      cases h
    match B, hlong with
    | a :: c :: k :: S, _ =>
      by_cases hbad : a ≠ aTx ∨ (c ≠ 0x00 ∧ c ≠ 0x40) ∨ k ≠ bcc1 a c
      · rw [decInfo_badHeader hbad] at h
        cases h
      · obtain ⟨rfl, hc, rfl⟩ : a = aTx ∧ (c = 0x00 ∨ c = 0x40) ∧ k = bcc1 a c := by
          simpa only [not_or, not_and_or, not_not] using hbad
        refine ⟨c, S, rfl, hc, ?_⟩
        cases hS : destuff S with
        | none =>
          rw [decInfo_malformed hc hS] at h
          cases h
        | some D =>
          rw [decInfo_destuffed hc hS] at h
          exact eq_of_checkTail_eq_good h

/-- Settles O6: the round trip of `ENC_INFO`, and the two headers that `DEC_INFO` accepts. -/
theorem informationFrameRoundTrips : Obligations.InformationFrameRoundTrips := by
  refine ⟨decInfo_encInfo, fun B ovf b P h => ?_⟩
  obtain ⟨hovf, c, S, rfl, hc, rfl⟩ := decInfo_eq_good h
  refine ⟨hovf, ?_⟩
  rcases hc with rfl | rfl <;> rfl

/-! ## Stuffing pairs (R88, R123) -/

/-- A sequence that destuffs ends no pair halfway, so what follows it is read by itself. -/
theorem destuff_append {S D : Bytes} (h : destuff S = some D) (T : Bytes) :
    destuff (S ++ T) = (destuff T).map (D ++ ·) := by
  induction S using destuff.induct generalizing D with
  | case1 =>
    obtain rfl : [] = D := by simpa using h
    simp
  | case2 => simp [destuff_esc_last] at h
  | case3 b hb =>
    obtain rfl : [b] = D := by simpa [destuff_cons_of_ne hb] using h
    simpa using destuff_cons_of_ne hb T
  | case4 S ih =>
    rw [destuff_flag_pair] at h
    obtain ⟨E, hE, rfl⟩ := Option.map_eq_some_iff.1 h
    simp [ih hE, Function.comp_def]
  | case5 S _ ih =>
    rw [destuff_esc_pair] at h
    obtain ⟨E, hE, rfl⟩ := Option.map_eq_some_iff.1 h
    simp [ih hE, Function.comp_def]
  | case6 x S hf he ih =>
    rw [destuff_esc_unpaired hf he] at h
    obtain ⟨E, hE, rfl⟩ := Option.map_eq_some_iff.1 h
    have := ih hE
    simp only [List.cons_append] at this ⊢
    simp [destuff_esc_unpaired hf he, this, Function.comp_def]
  | case7 b x S hb ih =>
    rw [destuff_cons_of_ne hb] at h
    obtain ⟨E, hE, rfl⟩ := Option.map_eq_some_iff.1 h
    have := ih hE
    simp only [List.cons_append] at this ⊢
    simp [destuff_cons_of_ne hb, this, Function.comp_def]

end Sys2Proof.Machine

namespace Sys2Proof

open Machine

/-! ## The decoder undoes the encoder (R88, R97, R101) -/

section
variable {i : Instr}

theorem orError_eq_ok {e : DecodeError} {o : Option Instr} : orError e o = .ok i ↔ o = some i := by
  cases o <;> simp [orError]

/-! ### Operand shapes -/

theorem opsByte_toNat (b : Byte) (f : Byte → Instr) : opsByte [b.toNat] f = some (f b) := by simp [opsByte]

theorem opsBit_toNat (b : Bit) (f : Bit → Instr) : opsBit [b.toNat] f = some (f b) := by simp [opsBit]

theorem opsStatus_code (e : Status) (f : Status → Instr) : opsStatus [(statusCode e).toNat] f = some (f e) := by
  simp [opsStatus]

theorem opsByte2_toNat (a c : Byte) (f : Byte → Byte → Instr) : opsByte2 [a.toNat, c.toNat] f = some (f a c) := by
  simp [opsByte2]

theorem opsBytes_bytesWords (B : Bytes) (f : Bytes → Instr) : opsBytes (bytesWords B) f = some (f B) := by
  simp [opsBytes]

theorem opsThenBytes_bytesWords {α : Type} {r : Nat → Option α} {w : Nat} {a : α} (hw : r w = some a) (B : Bytes)
    (f : α → Bytes → Instr) : opsThenBytes (w :: bytesWords B) r f = some (f a B) := by
  simp [opsThenBytes, hw]

/-! ### Rows, frames and commands -/

theorem parse_row {k : Nat} {ws : List Nat} {r : Option Instr} (h : parseRow k ws = some r) :
    parse ((256 + k) :: ws) = orError .badOperand r := by
  have hflag : ¬ 256 + k = 0x7E := by omega
  have hesc : ¬ 256 + k = 0x7D := by omega
  have hcode : ¬ 256 + k < 8 := by omega
  have hfree : ¬ 256 + k < 256 := by omega
  rw [parse, if_neg hflag, if_neg hesc, if_neg hcode, if_neg hfree, Nat.add_sub_cancel_left, h]

theorem parse_of_parseRow {k : Nat} {ws : List Nat} (h : parseRow k ws = some (some i)) :
    parse ((256 + k) :: ws) = .ok i := parse_row h

/-- A record that opens with the flag is read as the wire bytes of a frame. -/
theorem parse_frame (F : Bytes) : parse (bytesWords (flag :: F)) = orError .unknownFrame (parseFrame (flag :: F)) := by
  have hwords : wBytes (0x7E :: bytesWords F) = some (flag :: F) := wBytes_bytesWords (flag :: F)
  show parse (0x7E :: bytesWords F) = _
  rw [parse, if_pos rfl, hwords]

/-- Only format S has five bytes (R81, R89). -/
theorem parseFrame_of_length_ne {F : Bytes} (h : F.length ≠ 5) : parseFrame F = parseInfo F := by
  unfold parseFrame
  split
  · exact absurd rfl h
  · rfl

theorem parseInfo_encInfo (b : Bit) (P : Bytes) : parseInfo (encInfo b P) = some (if b = 0 then .i0 P else .i1 P) := by
  rw [parseInfo, decInfo_encInfo]
  exact if_pos rfl

theorem parse_encInfo (b : Bit) (P : Bytes) :
    parse (bytesWords (encInfo b P)) = .ok (if b = 0 then .i0 P else .i1 P) := by
  have hlen : (encInfo b P).length ≠ 5 := by
    have := length_le_length_stuff (P ++ [bcc2 P])
    rw [List.length_append, List.length_singleton] at this
    rw [length_encInfo]
    omega
  refine (parse_frame _).trans (orError_eq_ok.2 ?_)
  exact (parseFrame_of_length_ne hlen).trans (parseInfo_encInfo b P)

theorem parse_openCmd (r : Role) (n t : Nat) : parse [1, roleCode r, n, t] = .ok (.openCmd r n t) := by
  cases r <;> rfl

theorem parse_sendCmd (P : Bytes) : parse (2 :: P.length :: bytesWords P) = .ok (.sendCmd P) := by
  have hread : opsSend (P.length :: bytesWords P) = some (.sendCmd P) := by simp [opsSend]
  exact orError_eq_ok.2 hread

/-- The parser reads back the record of every instruction: a frame by its wire bytes, a command by its code, any other row
by its index and the shape of its operands. -/
theorem parse_encode (i : Instr) : parse (encode i) = .ok i := by
  cases i with
  | set | uaRx | uaTx | discTx | discRx | rr0 | rr1 | rej0 | rej1 | escFlag | escEsc => rfl
  | i0 P => exact parse_encInfo 0 P
  | i1 P => exact parse_encInfo 1 P
  | nop | receiveCmd | closeCmd | reserved5 | reserved6 | reserved7 => rfl
  | openCmd r n t => exact parse_openCmd r n t
  | sendCmd P => exact parse_sendCmd P
  | rrS b | rejS b | acceptRej b => exact parse_of_parseRow (congrArg some (opsBit_toNat b _))
  | rxbyteSup b | rxbyteCap b | recStep b | capStep b | handleAccept b =>
    exact parse_of_parseRow (congrArg some (opsByte_toNat b _))
  | bcc1 a c | encSup a c => exact parse_of_parseRow (congrArg some (opsByte2_toNat a c _))
  | bcc2 B | stuff B | destuff B | writeFrame B | bodyEscapeBad B | bodyChecksumBad B | bodyDuplicate B | bodyNew B =>
    exact parse_of_parseRow (congrArg some (opsBytes_bytesWords B _))
  | iS b B | encInfo b B => exact parse_of_parseRow (congrArg some (opsThenBytes_bytesWords (wBit_toNat b) B _))
  | decInfo B ovf | processBody B ovf | bodyHeaderBad B ovf =>
    exact parse_of_parseRow (congrArg some (opsThenBytes_bytesWords (wBool_toNat ovf) B _))
  | startTimed p F => exact parse_of_parseRow (congrArg some (opsThenBytes_bytesWords (wTimed_timedWord p) F _))
  | fail e => exact parse_of_parseRow (congrArg some (opsStatus_code e _))
  | tick | expire | resetInput | loopCheck | cancelTimer => rfl
  | acceptUaOpenTx | acceptSetOpenRx | acceptDiscCloseTx | acceptDiscCloseRx | acceptUaCloseRx => rfl
  | acceptRrNext | acceptRrSame => rfl

/-- Settles O56: the parser reads the record back, and a well-formed instruction passes the decoder's check. -/
theorem decodeOfEncodeIsTheInstruction : Obligations.DecodeOfEncodeIsTheInstruction :=
  fun i hwf => decode_of_parse (parse_encode i) hwf

/-! ## The encoder undoes the decoder -/

/-! ### Operand shapes -/

section
variable {ws : List Nat} {n : Nat}

theorem wBit_eq_some {w : Nat} {b : Bit} (h : wBit w = some b) : w = b.toNat := by
  unfold wBit at h
  split at h
  · cases h; simp; omega
  · cases h

theorem wBool_eq_some {w : Nat} {b : Bool} (h : wBool w = some b) : w = b.toNat := by
  match w with
  | 0 | 1 => cases h; rfl
  | w + 2 => simp [wBool] at h

theorem wTimed_eq_some {w : Nat} {p : TimedPhase} (h : wTimed w = some p) : w = timedWord p := by
  match w with
  | 0 | 1 | 2 | 3 => cases h; rfl
  | w + 4 => cases h

theorem wStatus_eq_some {w : Nat} {e : Status} (h : wStatus w = some e) : w = (statusCode e).toNat := by
  match w with
  | 0 | 1 | 2 | 3 | 4 | 5 | 6 => cases h; rfl
  | w + 7 => cases h

theorem wRole_eq_some {w : Nat} {r : Role} (h : wRole w = some r) : w = roleCode r := by
  match w with
  | 0 | 1 => cases h; rfl
  | w + 2 => cases h

theorem encode_of_ops0 {j : Instr} (h : ops0 ws j = some i) (henc : encode j = [n]) : encode i = n :: ws := by
  unfold ops0 at h
  split at h
  · rename_i hws
    cases h
    rw [henc, hws]
  · cases h

theorem encode_of_opsByte {f : Byte → Instr} (h : opsByte ws f = some i) (henc : ∀ b, encode (f b) = [n, b.toNat]) :
    encode i = n :: ws := by
  unfold opsByte at h
  split at h
  · obtain ⟨b, hb, rfl⟩ := Option.map_eq_some_iff.1 h
    rw [henc, wByte_eq_some hb]
  · cases h

theorem encode_of_opsBit {f : Bit → Instr} (h : opsBit ws f = some i) (henc : ∀ b, encode (f b) = [n, b.toNat]) :
    encode i = n :: ws := by
  unfold opsBit at h
  split at h
  · obtain ⟨b, hb, rfl⟩ := Option.map_eq_some_iff.1 h
    rw [henc, wBit_eq_some hb]
  · cases h

theorem encode_of_opsStatus {f : Status → Instr} (h : opsStatus ws f = some i)
    (henc : ∀ e, encode (f e) = [n, (statusCode e).toNat]) : encode i = n :: ws := by
  unfold opsStatus at h
  split at h
  · obtain ⟨e, he, rfl⟩ := Option.map_eq_some_iff.1 h
    rw [henc, wStatus_eq_some he]
  · cases h

theorem encode_of_opsByte2 {f : Byte → Byte → Instr} (h : opsByte2 ws f = some i)
    (henc : ∀ a c, encode (f a c) = [n, a.toNat, c.toNat]) : encode i = n :: ws := by
  unfold opsByte2 at h
  split at h
  · split at h
    · rename_i ha hc
      cases h
      rw [henc, wByte_eq_some ha, wByte_eq_some hc]
    · cases h
  · cases h

theorem encode_of_opsBytes {f : Bytes → Instr} (h : opsBytes ws f = some i)
    (henc : ∀ B, encode (f B) = n :: bytesWords B) : encode i = n :: ws := by
  obtain ⟨B, hB, rfl⟩ := Option.map_eq_some_iff.1 h
  rw [henc, wBytes_eq_some hB]

theorem encode_of_opsThenBytes {α : Type} {r : Nat → Option α} {w : α → Nat} {f : α → Bytes → Instr}
    (h : opsThenBytes ws r f = some i) (hr : ∀ {v a}, r v = some a → v = w a)
    (henc : ∀ a B, encode (f a B) = n :: w a :: bytesWords B) : encode i = n :: ws := by
  unfold opsThenBytes at h
  split at h
  · split at h
    · rename_i ha hB
      cases h
      rw [henc, hr ha, wBytes_eq_some hB]
    · cases h
  · cases h

theorem encode_of_opsBitThenBytes {f : Bit → Bytes → Instr} (h : opsThenBytes ws wBit f = some i)
    (henc : ∀ b B, encode (f b B) = n :: b.toNat :: bytesWords B) : encode i = n :: ws :=
  encode_of_opsThenBytes h wBit_eq_some henc

theorem encode_of_opsBoolThenBytes {f : Bool → Bytes → Instr} (h : opsThenBytes ws wBool f = some i)
    (henc : ∀ b B, encode (f b B) = n :: b.toNat :: bytesWords B) : encode i = n :: ws :=
  encode_of_opsThenBytes h wBool_eq_some henc

theorem encode_of_opsTimedThenBytes {f : TimedPhase → Bytes → Instr} (h : opsThenBytes ws wTimed f = some i)
    (henc : ∀ p B, encode (f p B) = n :: timedWord p :: bytesWords B) : encode i = n :: ws :=
  encode_of_opsThenBytes h wTimed_eq_some henc

/-! ### Rows, commands, pairs and frames -/

/-- A row read by its index encodes to that index and the words read: every operand shape reads back. -/
theorem encode_of_parseRow {k : Nat} (h : parseRow k ws = some (some i)) : encode i = (256 + k) :: ws := by
  unfold parseRow at h
  split at h
  any_goals exact encode_of_ops0 (Option.some.inj h) rfl
  any_goals exact encode_of_opsBit (Option.some.inj h) fun _ => rfl
  any_goals exact encode_of_opsByte (Option.some.inj h) fun _ => rfl
  any_goals exact encode_of_opsByte2 (Option.some.inj h) fun _ _ => rfl
  any_goals exact encode_of_opsBytes (Option.some.inj h) fun _ => rfl
  any_goals exact encode_of_opsBitThenBytes (Option.some.inj h) fun _ _ => rfl
  any_goals exact encode_of_opsBoolThenBytes (Option.some.inj h) fun _ _ => rfl
  any_goals exact encode_of_opsTimedThenBytes (Option.some.inj h) fun _ _ => rfl
  any_goals exact encode_of_opsStatus (Option.some.inj h) fun _ => rfl
  cases h

theorem encode_of_opsOpen (h : opsOpen ws = some i) : encode i = 1 :: ws := by
  unfold opsOpen at h
  split at h
  · obtain ⟨r, hr, rfl⟩ := Option.map_eq_some_iff.1 h
    rw [wRole_eq_some hr]
    rfl
  · cases h

theorem encode_of_opsSend (h : opsSend ws = some i) : encode i = 2 :: ws := by
  unfold opsSend at h
  split at h
  · split at h
    · rename_i hlen
      obtain ⟨P, hP, rfl⟩ := Option.map_eq_some_iff.1 h
      rw [← hlen, wBytes_eq_some hP, bytesWords_length]
      rfl
    · cases h
  · cases h

theorem encode_of_parseCommand {code : Nat} (h : parseCommand code ws = some i) : encode i = code :: ws := by
  unfold parseCommand at h
  split at h
  any_goals exact encode_of_ops0 h rfl
  · exact encode_of_opsOpen h
  · exact encode_of_opsSend h
  · cases h

theorem encode_of_parsePair (h : parsePair ws = some i) : encode i = 0x7D :: ws := by
  unfold parsePair at h
  split at h
  · cases h; rfl
  · cases h; rfl
  · cases h

/-- The three bytes of a header (R97). -/
theorem header_bytes (a c k : Byte) :
    BitVec.extractLsb' 16 8 (a ++ c ++ k) = a ∧ BitVec.extractLsb' 8 8 (a ++ c ++ k) = c ∧
    BitVec.extractLsb' 0 8 (a ++ c ++ k) = k := by
  refine ⟨?_, ?_, ?_⟩
  · rw [BitVec.extractLsb'_append_eq_of_le (by decide), BitVec.extractLsb'_append_eq_left]
  · rw [BitVec.extractLsb'_append_eq_of_le (by decide), BitVec.extractLsb'_append_eq_right]
  · exact BitVec.extractLsb'_append_eq_right

theorem encode_instr_of_mem_supervisionRows : ∀ row ∈ supervisionRows,
    encode row.instr =
      bytesWords [flag, row.header.extractLsb' 16 8, row.header.extractLsb' 8 8, row.header.extractLsb' 0 8, flag] := by
  decide

/-- The frame of a row of R97's table is its header between flags. -/
theorem encode_of_header {row : HeaderRow} {a c k : Byte} (hrow : row ∈ supervisionRows) (h : row.header = a ++ c ++ k) :
    encode row.instr = bytesWords [flag, a, c, k, flag] := by
  obtain ⟨ha, hc, hk⟩ := header_bytes a c k
  rw [encode_instr_of_mem_supervisionRows row hrow, h, ha, hc, hk]

theorem encode_of_parseInfo {F : Bytes} (h : parseInfo F = some i) : encode i = bytesWords F := by
  unfold parseInfo at h
  split at h
  · rename_i b P _
    split at h
    · rename_i hF
      cases h
      rcases eq_zero_or_one b with rfl | rfl <;> exact congrArg bytesWords hF
    · cases h
  all_goals cases h

theorem encode_of_parseFrame {F : Bytes} (h : parseFrame F = some i) : encode i = bytesWords F := by
  unfold parseFrame at h
  split at h
  · rename_i f a c k g
    split at h
    · rename_i hflags
      obtain ⟨row, hrow, rfl⟩ := Option.map_eq_some_iff.1 h
      have hheader : row.header = a ++ c ++ k := by simpa using List.find?_some hrow
      obtain ⟨rfl, rfl⟩ := hflags
      exact encode_of_header (List.mem_of_find?_eq_some hrow) hheader
    · cases h
  · exact encode_of_parseInfo h

end

theorem encode_of_parse {r : Record} (h : parse r = .ok i) : encode i = r := by
  unfold parse at h
  split at h
  · cases h
  · rename_i w ws
    split at h
    · split at h
      · rename_i F hF
        rw [wBytes_eq_some hF]
        exact encode_of_parseFrame (orError_eq_ok.1 h)
      · cases h
    · split at h
      · rename_i hesc
        rw [hesc]
        exact encode_of_parsePair (orError_eq_ok.1 h)
      · split at h
        · exact encode_of_parseCommand (orError_eq_ok.1 h)
        · split at h
          · cases h
          · split at h
            · rename_i hrow
              have hrow' := encode_of_parseRow (hrow.trans (congrArg some (orError_eq_ok.1 h)))
              rwa [Nat.add_sub_cancel' (by omega)] at hrow'
            · cases h

/-- Settles O57: a record is read by its first word, and each reading writes back to the same words. -/
theorem encodeOfDecodeIsTheRecord : Obligations.EncodeOfDecodeIsTheRecord :=
  fun _ _ h => encode_of_parse (parse_of_decode h)

/-- Settles O58: each word is decoded and each code computed. -/
theorem specWordsDecodeToTheirRows : Obligations.SpecWordsDecodeToTheirRows := by
  refine ⟨by decide, by decide, by decide, by decide, by decide, by decide, by decide, fun P => ?_, fun s P => rfl, rfl, rfl,
    rfl, rfl⟩
  exact ⟨rfl, rfl, rfl, rfl, rfl, rfl, rfl⟩

end

end Sys2Proof

namespace Sys2Proof.Machine

/-! ## The recognizer, byte by byte (R141 to R145) -/

section
variable {x : Expectation} {k b : Byte}

theorem recNext_idle_of_eq (h : b = flag) : recNext x .idle k b = ⟨.flag, k, none⟩ := by
  rw [recNext_idle, resync, if_pos h]

theorem recNext_idle_of_ne (h : b ≠ flag) : recNext x .idle k b = ⟨.idle, k, none⟩ := by
  rw [recNext_idle, resync, if_neg h]

theorem recNext_flag_of_eq (h : b = x.addr) : recNext x .flag k b = ⟨.addr, k, none⟩ := if_pos h

theorem recNext_flag_of_ne (h : b ≠ x.addr) : recNext x .flag k b = ⟨resync b, k, none⟩ := if_neg h

theorem recNext_addr_of_mem (h : b ∈ x.ctrls) : recNext x .addr k b = ⟨.ctrl, b, none⟩ := if_pos h

theorem recNext_addr_of_not_mem (h : b ∉ x.ctrls) : recNext x .addr k b = ⟨resync b, k, none⟩ := if_neg h

theorem recNext_ctrl_of_eq (h : b = bcc1 x.addr k) : recNext x .ctrl k b = ⟨.bcc, k, none⟩ := if_pos h

theorem recNext_ctrl_of_ne (h : b ≠ bcc1 x.addr k) : recNext x .ctrl k b = ⟨resync b, k, none⟩ := if_neg h

end

/-! ## The recognizer on a sequence (R141 to R146, R157) -/

section
variable {x : Expectation} {r r' : RecState} {k k' c : Byte} {A B : Bytes}

/-- A first part that is not accepted only moves the recognizer. -/
theorem recFeed_append_of_silent (h : recFeed x r k A = (r', k', [])) : recFeed x r k (A ++ B) = recFeed x r' k' B := by
  induction A generalizing r k with
  | nil => cases h; rfl
  | cons b A ih =>
    obtain ⟨hr, hk, hcs⟩ : _ ∧ _ ∧ _ ++ _ = [] := by simpa only [recFeed, Prod.mk.injEq] using h
    obtain ⟨hnone, hrest⟩ := List.append_eq_nil_iff.1 hcs
    have hA := ih (r := (recNext x r k b).state) (k := (recNext x r k b).ctrl) (Prod.ext hr (Prod.ext hk hrest))
    simp only [List.cons_append, recFeed, hA, hnone, List.nil_append]

/-- Bytes without a flag leave a fresh recognizer where it is. -/
theorem recFeed_noise (h : flag ∉ A) : recFeed x .idle k A = (.idle, k, []) := by
  induction A with
  | nil => rfl
  | cons b A ih =>
    rw [List.mem_cons, not_or] at h
    rw [recFeed, recNext_idle_of_ne (Ne.symm h.1), ih h.2]
    rfl

/-- A frame up to its last byte, read from any state that a flag takes to `R_FLAG`. -/
theorem recFeed_frame (hflag : recNext x r k flag = ⟨.flag, k, none⟩) (hc : c ∈ x.ctrls) :
    recFeed x r k [flag, x.addr, c, bcc1 x.addr c] = (.bcc, c, []) := by
  simp only [recFeed, hflag, recNext_flag_of_eq, recNext_addr_of_mem hc, recNext_ctrl_of_eq]
  rfl

theorem encSup_eq (a c : Byte) : encSup a c = [flag, a, c, bcc1 a c] ++ [flag] := rfl

/-- How many bytes of a frame the recognizer has read. -/
def bytesSeen : RecState → Nat
  | .idle => 0
  | .flag => 1
  | .addr => 2
  | .ctrl => 3
  | .bcc => 4

theorem bytesSeen_resync_le (b : Byte) : bytesSeen (resync b) ≤ 1 := by
  unfold resync
  split <;> decide

/-- Each byte carries the recognizer on by at most one. -/
theorem bytesSeen_recNext_le (b : Byte) : bytesSeen (recNext x r k b).state ≤ bytesSeen r + 1 := by
  have hresync := bytesSeen_resync_le b
  cases r with
  | idle => exact hresync
  | flag =>
    rw [recNext_flag]
    show bytesSeen (if _ then _ else _) ≤ 2
    split
    · decide
    · omega
  | addr =>
    rw [recNext_addr]
    split
    · exact Nat.le_refl 3
    · exact hresync.trans (by decide)
  | ctrl =>
    rw [recNext_ctrl_eq]
    show bytesSeen (if _ then _ else _) ≤ 4
    split
    · decide
    · omega
  | bcc => exact Nat.zero_le _

/-- A frame takes five bytes: with fewer, counting those already read, nothing is accepted. -/
theorem recFeed_of_short (h : bytesSeen r + B.length ≤ 4) : (recFeed x r k B).2.2 = [] := by
  induction B generalizing r k with
  | nil => rfl
  | cons b B ih =>
    rw [List.length_cons] at h
    have hnext := bytesSeen_recNext_le (x := x) (r := r) (k := k) b
    have hnone : (recNext x r k b).accept = none := by
      rw [Option.eq_none_iff_forall_ne_some]
      intro c hc
      obtain ⟨rfl, -, -⟩ := recNext_accept.1 hc
      exact absurd h (by simp [bytesSeen])
    rw [recFeed, hnone]
    exact ih (by omega)

theorem recFeed_cons_of_silent {b : Byte} (h : recNext x r k b = ⟨r', k', none⟩) :
    (recFeed x r k (b :: B)).2.2 = (recFeed x r' k' B).2.2 := by
  rw [recFeed, h]
  rfl

/-- A byte that fits no expected value leaves too few bytes for a frame. -/
theorem recFeed_of_resync {b : Byte} (h : recNext x r k b = ⟨resync b, k, none⟩) (hB : B.length ≤ 3) :
    (recFeed x r k (b :: B)).2.2 = [] := by
  have hseen := bytesSeen_resync_le b
  rw [recFeed_cons_of_silent h]
  exact recFeed_of_short (by omega)

/-- Of five bytes a fresh recognizer accepts the whole five or nothing. -/
theorem recFeed_five (x : Expectation) (k f a c d g : Byte) :
    (recFeed x .idle k [f, a, c, d, g]).2.2 =
      if f = flag ∧ a = x.addr ∧ c ∈ x.ctrls ∧ d = bcc1 a c ∧ g = flag then [c] else [] := by
  by_cases hf : f = flag
  · rw [recFeed_cons_of_silent (recNext_idle_of_eq hf)]
    by_cases ha : a = x.addr
    · rw [recFeed_cons_of_silent (recNext_flag_of_eq ha)]
      by_cases hc : c ∈ x.ctrls
      · rw [recFeed_cons_of_silent (recNext_addr_of_mem hc)]
        by_cases hd : d = bcc1 a c
        · rw [recFeed_cons_of_silent (recNext_ctrl_of_eq (ha ▸ hd))]
          by_cases hg : g = flag <;> simp [recFeed, recNext_bcc, hf, ha, hc, hd, hg]
        · rw [recFeed_of_resync (recNext_ctrl_of_ne (ha ▸ hd)) (by simp), if_neg (by simp [hd])]
      · rw [recFeed_of_resync (recNext_addr_of_not_mem hc) (by simp), if_neg (by simp [hc])]
    · rw [recFeed_of_resync (recNext_flag_of_ne ha) (by simp), if_neg (by simp [ha])]
  · rw [recFeed_cons_of_silent (recNext_idle_of_ne hf), recFeed_of_short (by simp [bytesSeen]), if_neg (by simp [hf])]

end

/-- Settles O11: a frame takes all five bytes, each the expected one; the flag clause is `recNext_on_flag`. -/
theorem recognizerAcceptsExactlyItsFrames : Obligations.RecognizerAcceptsExactlyItsFrames :=
  ⟨recFeed_five, fun _ _ k hx => recNext_on_flag hx k⟩

/-! ## The capture on a sequence (R151 to R155, R157) -/

section
variable {cap : Option Nat} {r r' : CapState} {buf buf' : Bytes} {ovf ovf' : Bool} {A B : Bytes}

/-- A first part that completes no body only moves the capture. -/
theorem capFeed_append_of_silent (h : capFeed cap r buf ovf A = (r', buf', ovf', [])) :
    capFeed cap r buf ovf (A ++ B) = capFeed cap r' buf' ovf' B := by
  induction A generalizing r buf ovf with
  | nil => cases h; rfl
  | cons b A ih =>
    obtain ⟨hr, hbuf, hovf, hbodies⟩ : _ ∧ _ ∧ _ ∧ _ ++ _ = [] := by simpa only [capFeed, Prod.mk.injEq] using h
    obtain ⟨hnone, hrest⟩ := List.append_eq_nil_iff.1 hbodies
    have hA := ih (r := (capNext cap r buf ovf b).state) (buf := (capNext cap r buf ovf b).buf)
      (ovf := (capNext cap r buf ovf b).ovf) (Prod.ext hr (Prod.ext hbuf (Prod.ext hovf hrest)))
    simp only [List.cons_append, capFeed, hA, hnone, List.nil_append]

theorem capFeed_cons_of_silent {b : Byte} (h : capNext cap r buf ovf b = ⟨r', buf', ovf', none⟩) :
    capFeed cap r buf ovf (b :: B) = capFeed cap r' buf' ovf' B := by
  rw [capFeed, h]
  rfl

/-- Bytes without a flag leave an idle capture where it is. -/
theorem capFeed_noise (h : flag ∉ A) : capFeed cap .idle buf ovf A = (.idle, buf, ovf, []) := by
  induction A with
  | nil => rfl
  | cons b A ih =>
    rw [List.mem_cons, not_or] at h
    rw [capFeed_cons_of_silent (capNext_idle_of_ne (Ne.symm h.1)), ih h.2]

/-- Inside a body, bytes that fit are collected raw. -/
theorem capFeed_body (hB : flag ∉ B) (hfits : ∀ n, cap = some n → buf.length + B.length ≤ n) :
    capFeed cap .body buf ovf B = (.body, buf ++ B, ovf, []) := by
  induction B generalizing buf with
  | nil => rw [List.append_nil]; rfl
  | cons b B ih =>
    rw [List.mem_cons, not_or] at hB
    rw [List.length_cons] at hfits
    have hroom : below buf.length cap = true := by
      rw [below_eq_true_iff]
      cases cap with
      | none => exact .inl rfl
      | some n => exact .inr ⟨n, rfl, by have := hfits n rfl; omega⟩
    rw [capFeed_cons_of_silent (capNext_body_of_below (Ne.symm hB.1) hroom), ih hB.2, List.append_assoc]
    · rfl
    · intro n hn
      have := hfits n hn
      rw [List.length_append, List.length_singleton]
      omega

/-- An opening flag and then a body that fits, read by a capture that is idle or has read a flag. -/
theorem capFeed_frame (hopen : r = .idle ∨ (r = .flag ∧ ovf = false)) (hne : B ≠ []) (hB : flag ∉ B)
    (hfits : ∀ n, cap = some n → B.length ≤ n) : capFeed cap r buf ovf (flag :: B) = (.body, B, false, []) := by
  obtain ⟨buf', hflag⟩ : ∃ buf', capNext cap r buf ovf flag = ⟨.flag, buf', false, none⟩ := by
    rcases hopen with rfl | ⟨rfl, rfl⟩
    · exact ⟨[], capNext_idle_of_flag rfl⟩
    · exact ⟨buf, capNext_flag_of_flag rfl⟩
  rw [capFeed_cons_of_silent hflag]
  cases B with
  | nil => exact absurd rfl hne
  | cons b B =>
    rw [List.mem_cons, not_or] at hB
    rw [capFeed_cons_of_silent (capNext_flag_of_ne (Ne.symm hB.1)), capFeed_body hB.2]
    · rfl
    · intro n hn
      have := hfits n hn
      rw [List.length_cons] at this
      rw [List.length_singleton]
      omega

end

/-- What an I frame has between its flags: the body a capture completes. -/
def infoBody (b : Bit) (P : Bytes) : Bytes := ((encInfo b P).drop 1).dropLast

theorem encInfo_eq_infoBody (b : Bit) (P : Bytes) : encInfo b P = (flag :: infoBody b P) ++ [flag] := by
  rw [infoBody, encInfo_drop_dropLast, encInfo_eq]
  rfl

theorem infoBody_ne_nil (b : Bit) (P : Bytes) : infoBody b P ≠ [] := by
  rw [infoBody, encInfo_drop_dropLast]
  nofun

/-- BODY_CAP admits the body of a payload within MAX_PAYLOAD (R62). -/
theorem length_infoBody_le {q : Params} {P : Bytes} (hP : ∀ m, q.maxPayload = some m → P.length ≤ m) (b : Bit) :
    ∀ n, bodyCap q = some n → (infoBody b P).length ≤ n := by
  intro n hn
  obtain ⟨m, hm, rfl⟩ := Option.map_eq_some_iff.1 hn
  have hfits := hP m hm
  have hstuff := length_stuff_le (P ++ [bcc2 P])
  rw [List.length_append, List.length_singleton] at hstuff
  rw [infoBody, encInfo_drop_dropLast]
  simp only [List.length_cons]
  omega

/-- Settles O12: the noise moves neither scanner, and the frame up to its last byte yields nothing. -/
theorem noiseThenFrameYieldsOneResult : Obligations.NoiseThenFrameYieldsOneResult := by
  intro N hN
  refine ⟨fun p x k c _ hc => ?_, fun q b P hP => ?_⟩
  · have hframe := recFeed_frame (r := .idle) (k := k) rfl hc
    rw [encSup_eq, List.dropLast_concat, recFeed_append_of_silent (recFeed_noise hN),
      recFeed_append_of_silent (recFeed_noise hN), recFeed_append_of_silent hframe, hframe]
    exact ⟨rfl, rfl⟩
  · have hframe := capFeed_frame (cap := bodyCap q) (buf := []) (ovf := false) (.inl rfl) (infoBody_ne_nil b P)
      (flag_not_mem_encInfo_inside b P) (length_infoBody_le hP b)
    have hN' : ∀ B, capFeed (bodyCap q) .idle [] false (N ++ B) = capFeed (bodyCap q) .idle [] false B :=
      fun B => capFeed_append_of_silent (capFeed_noise hN)
    rw [← infoBody, encInfo_eq_infoBody, List.dropLast_concat, hN', hN', capFeed_append_of_silent hframe, hframe]
    exact ⟨rfl, rfl⟩

end Sys2Proof.Machine

namespace Sys2Proof.Machine

/-! ## A sequence read by the recognizer of a wait (R104, R177) -/

theorem rxBytes_append (A B : Bytes) (s : State) : rxBytes (A ++ B) s = andThen (rxBytes A s) (rxBytes B) := by
  induction A generalizing s with
  | nil => rfl
  | cons b A ih =>
    rw [List.cons_append, rxBytes_cons, rxBytes_cons]
    cases rxInput b s with
    | next u => exact ih u
    | fault e => rfl
    | refused e => rfl

theorem rxBytes_append_of_next {A B : Bytes} {s u : State} (h : rxBytes A s = .next u) :
    rxBytes (A ++ B) s = rxBytes B u := by
  rw [rxBytes_append, h, andThen_next]

theorem rxBytes_singleton (b : Byte) (s : State) : rxBytes [b] s = rxInput b s := (rxInput_eq_rxBytes b s).symm

theorem loopCheckIfTimed_of_idle {s : State} (h : s.phase = .idle) : loopCheckIfTimed s = s :=
  loopCheckIfTimed_untimed (by rw [h]; rfl)

/-- The wait is not at a bound test: it is untimed, or its timer runs below the bound. -/
def Waiting (s : State) : Prop := isTimed s.phase = true → s.retryCnt < s.ntries ∧ s.timerRunning = true

theorem Waiting.loopCheckIfTimed {s : State} (h : Waiting s) : loopCheckIfTimed s = s := by
  cases htimed : isTimed s.phase with
  | true =>
    obtain ⟨hlt, hrun⟩ := h htimed
    exact loopCheckIfTimed_of_running hlt hrun
  | false => exact loopCheckIfTimed_untimed (timeoutError_of_untimed htimed)

section
variable {s : State} {x : Expectation}

/-- Bytes that complete no frame only move the recognizer of a wait. -/
theorem rxBytes_of_recFeed {B : Bytes} {r : RecState} {k : Byte} (hx : expectation s.phase = some x) (hq : s.rxq = [])
    (hwait : Waiting s) (hfeed : recFeed x s.recState s.recCtrl B = (r, k, [])) :
    rxBytes B s = .next { s with recState := r, recCtrl := k } := by
  induction B generalizing s with
  | nil =>
    obtain ⟨rfl, rfl⟩ : s.recState = r ∧ s.recCtrl = k := by simpa [recFeed] using hfeed
    rfl
  | cons b B ih =>
    obtain ⟨hr, hk, hcs⟩ : _ ∧ _ ∧ _ ++ _ = [] := by simpa only [recFeed, Prod.mk.injEq] using hfeed
    obtain ⟨hnone, hrest⟩ := List.append_eq_nil_iff.1 hcs
    have hbyte : rxInput b s = .next (recWrite (recOut x b s) s) := by
      have hwait' : Waiting (recWrite (recOut x b s) s) := hwait
      rw [rxInput_supervision hx hq, rxSupervision_none (Option.toList_eq_nil_iff.1 hnone), hwait'.loopCheckIfTimed]
    rw [rxBytes_cons, hbyte, andThen_next]
    exact ih (s := recWrite (recOut x b s) s) hx hq hwait (Prod.ext hr (Prod.ext hk hrest))

/-- What an Accept of `c` leaves before its rule: the recognizer idle and the frame counted (R145, R177). -/
def afterFrame (c : Byte) (s : State) : State := countRx { s with recState := .idle, recCtrl := c }

/-- The flag after a frame read up to its last byte: count, dispatch, bound test (R177). -/
theorem rxInput_flag_of_bcc (hx : expectation s.phase = some x) (hq : s.rxq = []) (hrec : s.recState = .bcc) :
    rxInput flag s =
      andThen (handleAccept s.recCtrl (afterFrame s.recCtrl s)) fun u => .next (loopCheckIfTimed u) := by
  have hout := recOut_of_bcc_flag hrec x
  rw [rxInput_supervision hx hq, rxSupervision_some (congrArg RecOut.accept hout), hout]
  rfl

/-- A whole frame of the expectation, read from any state that a flag takes to `R_FLAG`. -/
theorem rxBytes_encSup {c : Byte} (hx : expectation s.phase = some x) (hq : s.rxq = []) (hwait : Waiting s)
    (hflag : recNext x s.recState s.recCtrl flag = ⟨.flag, s.recCtrl, none⟩) (hc : c ∈ x.ctrls) :
    rxBytes (encSup x.addr c) s =
      andThen (handleAccept c (afterFrame c s)) fun u => .next (loopCheckIfTimed u) := by
  rw [encSup_eq, rxBytes_append_of_next (rxBytes_of_recFeed hx hq hwait (recFeed_frame hflag hc)), rxBytes_singleton]
  exact rxInput_flag_of_bcc (s := { s with recState := .bcc, recCtrl := c }) hx hq rfl

/-- Unless a frame stands before its last byte, a flag opens a frame (R147). -/
theorem Coherent.recNext_flag (h : Coherent s) (hx : expectation s.phase = some x) (hrec : s.recState ≠ .bcc) :
    recNext x s.recState s.recCtrl flag = ⟨.flag, s.recCtrl, none⟩ := by
  obtain ⟨hflag, haddr, hctrl⟩ := recNext_on_flag hx s.recCtrl
  cases hr : s.recState with
  | idle => rfl
  | flag => exact hflag
  | addr => exact haddr
  | ctrl => exact hctrl (h.rec_ctrl x hx (.inl hr))
  | bcc => exact absurd hr hrec

theorem cancelOut_of_running (h : s.timerRunning = true) : cancelOut s = [.tmrCancel] := if_pos h

end

/-- An Accept that ends the wait is followed by no bound test. -/
theorem andThen_check_of_idle {r : Res} {t : State} (hr : r = .next t) (ht : t.phase = .idle) :
    (andThen r fun u => .next (loopCheckIfTimed u)) = .next t := by
  rw [hr, andThen_next, loopCheckIfTimed_of_idle ht]

/-! ## The closing byte of the awaited reply (R179) -/

/-- Settles O19: the flag raises the Accept, whose rule finds no timer to cancel and ends the wait. -/
theorem replyBeatsExpiry : Obligations.ReplyBeatsExpiry := by
  intro s hq hrec hstop
  have hflag : ∀ x, expectation s.phase = some x → exec (.rxbyteSup flag) s =
      andThen (handleAccept s.recCtrl (afterFrame s.recCtrl s)) fun u => .next (loopCheckIfTimed u) :=
    fun x hx => rxInput_flag_of_bcc hx hq hrec
  have hcancel : cancelOut (afterFrame s.recCtrl s) = [] := cancelOut_of_stopped hstop
  refine ⟨fun hphase hc => ?_, fun hphase hc => ?_, fun hphase hc => ?_, fun hphase hc => ?_⟩ <;>
    refine (hflag _ (by rw [hphase]; rfl)).trans ?_
  · rw [andThen_check_of_idle (handleAccept_openTxWaitUa (s := afterFrame _ s) hphase hc) rfl, acceptOpenTx_eq, hcancel]
    simp [afterFrame, countRx, hstop]
  · rw [andThen_check_of_idle (handleAccept_rrNext (s := afterFrame _ s) hphase hc) rfl, acceptAck_eq, hcancel]
    simp [afterFrame, countRx, hstop]
  · rw [andThen_check_of_idle (handleAccept_closeRxWaitUa (s := afterFrame _ s) hphase hc) rfl, acceptCloseRxUa_eq, hcancel]
    simp [afterFrame, countRx, hstop]
  · rw [andThen_check_of_idle (handleAccept_closeTxWaitDisc (s := afterFrame _ s) hphase hc) rfl, acceptCloseTx_eq, hcancel]
    simp [afterFrame, countRx, hstop]
    rfl

/-! ## Whole supervision frames (R90 to R94, R104) -/

section
variable {s : State} {x : Expectation}

/-- A whole frame in a coherent wait, and the rule its control byte has there. -/
theorem Coherent.rxBytes_encSup (h : Coherent s) (hq : s.rxq = []) (hrec : s.recState ≠ .bcc)
    (hx : expectation s.phase = some x) (hwait : Waiting s) {c : Byte} (hc : c ∈ x.ctrls) {t : State}
    (haccept : handleAccept c (afterFrame c s) = .next t) :
    rxBytes (encSup x.addr c) s = .next (loopCheckIfTimed t) := by
  rw [Machine.rxBytes_encSup hx hq hwait (h.recNext_flag hx hrec) hc, haccept, andThen_next]

end

/-- Settles O37: each frame is the one its wait expects, so it is read whole and has its accept rule's effect. -/
theorem handshakeFramesCompleteTheirWait : Obligations.HandshakeFramesCompleteTheirWait := by
  intro s hcoh hq hrec
  refine ⟨fun hphase => ?_, fun hphase hrun hlt => ?_, fun hphase hrun hlt => ?_, fun hphase hpos => ?_,
    fun hphase hrun hlt => ?_⟩
  · have hwait : Waiting s := fun h => absurd h (by rw [hphase]; decide)
    refine (hcoh.rxBytes_encSup hq hrec (x := ⟨aTx, [cSet]⟩) (c := cSet) (by rw [hphase]; rfl) hwait (by decide)
      (handleAccept_openRxWaitSet (s := afterFrame _ s) hphase rfl)).trans ?_
    rw [loopCheckIfTimed_of_idle rfl, acceptOpenRx_eq]
    rfl
  · have hwait : Waiting s := fun _ => ⟨hlt, hrun⟩
    refine (hcoh.rxBytes_encSup hq hrec (x := ⟨aRx, [cUa]⟩) (c := cUa) (by rw [hphase]; rfl) hwait (by decide)
      (handleAccept_openTxWaitUa (s := afterFrame _ s) hphase rfl)).trans ?_
    rw [loopCheckIfTimed_of_idle rfl, acceptOpenTx_eq, cancelOut_of_running (s := afterFrame _ s) hrun]
    simp [afterFrame, countRx]
    rfl
  · have hwait : Waiting s := fun _ => ⟨hlt, hrun⟩
    refine (hcoh.rxBytes_encSup hq hrec (x := ⟨aRx, [cDisc]⟩) (c := cDisc) (by rw [hphase]; rfl) hwait (by decide)
      (handleAccept_closeTxWaitDisc (s := afterFrame _ s) hphase rfl)).trans ?_
    rw [loopCheckIfTimed_of_idle rfl, acceptCloseTx_eq, cancelOut_of_running (s := afterFrame _ s) hrun]
    simp [afterFrame, countRx]
    exact ⟨rfl, rfl⟩
  · have hwait : Waiting s := fun h => absurd h (by rw [hphase]; decide)
    refine (hcoh.rxBytes_encSup hq hrec (x := ⟨aTx, [cDisc]⟩) (c := cDisc) (by rw [hphase]; rfl) hwait (by decide)
      (handleAccept_closeRxWaitDisc (s := afterFrame _ s) hphase rfl)).trans ?_
    rw [startTimed_pos _ _ (afterFrame _ s) hpos,
      loopCheckIfTimed_of_running (s := exchangeWaiting _ _ (afterFrame _ s)) hpos rfl]
    rfl
  · have hwait : Waiting s := fun _ => ⟨hlt, hrun⟩
    refine (hcoh.rxBytes_encSup hq hrec (x := ⟨aTx, [cUa]⟩) (c := cUa) (by rw [hphase]; rfl) hwait (by decide)
      (handleAccept_closeRxWaitUa (s := afterFrame _ s) hphase rfl)).trans ?_
    rw [loopCheckIfTimed_of_idle rfl, acceptCloseRxUa_eq, cancelOut_of_running (s := afterFrame _ s) hrun]
    simp [afterFrame, countRx]
    rfl

/-! ### Replies to a SEND (R93, R94, R221 to R223) -/

/-- What the reply wait of SEND expects (R36). -/
def replies : Expectation := ⟨aRx, [cRR 0, cRR 1, cRej 0, cRej 1]⟩

theorem cRej_mem_replyCtrls : ∀ b : Bit, cRej b ∈ [cRR 0, cRR 1, cRej 0, cRej 1] := by decide

/-- The two concrete RR rows are the RR frames of the two bits (R97). -/
theorem exec_rr (b : Bit) (s : State) : exec (if b = 0 then .rr0 else .rr1) s = rxBytes (encSup aRx (cRR b)) s := by
  rcases eq_zero_or_one b with rfl | rfl <;> rfl

/-- The two concrete REJ rows are the REJ frames of the two bits (R97). -/
theorem exec_rej (b : Bit) (s : State) : exec (if b = 0 then .rej0 else .rej1) s = rxBytes (encSup aRx (cRej b)) s := by
  rcases eq_zero_or_one b with rfl | rfl <;> rfl

theorem eq_not_of_ne : ∀ {b n : Bit}, b ≠ n → b = ~~~ n := by decide

section
variable {s : State}

/-- A whole reply in the wait of SEND, read from any state that a flag takes to `R_FLAG`, and the rule it has there. -/
theorem rxBytes_reply (hphase : s.phase = .sendWaitAck) (hq : s.rxq = []) (hrun : s.timerRunning = true)
    (hlt : s.retryCnt < s.ntries) (hflag : recNext replies s.recState s.recCtrl flag = ⟨.flag, s.recCtrl, none⟩) {c : Byte}
    (hc : c ∈ replies.ctrls) {t : State} (haccept : handleAccept c (afterFrame c s) = .next t) :
    rxBytes (encSup aRx c) s = .next (loopCheckIfTimed t) := by
  have hx : expectation s.phase = some replies := by rw [hphase]; rfl
  have hframe := rxBytes_encSup hx hq (fun _ => ⟨hlt, hrun⟩) hflag hc
  rw [haccept, andThen_next] at hframe
  exact hframe

/-- RR of the other bit ends a SEND (R221). -/
theorem rxBytes_rrNext (hphase : s.phase = .sendWaitAck) (hq : s.rxq = []) (hrun : s.timerRunning = true)
    (hlt : s.retryCnt < s.ntries) (hflag : recNext replies s.recState s.recCtrl flag = ⟨.flag, s.recCtrl, none⟩) {b : Bit}
    (hb : b = ~~~ s.ns) :
    rxBytes (encSup aRx (cRR b)) s =
      .next { s with
        recState := .idle, recCtrl := cRR b, cntRxFrames := bump s.params s.cntRxFrames, ns := b
        timerRunning := false, phase := .idle, out := s.out ++ [.tmrCancel, .done .ok none] } := by
  refine (rxBytes_reply hphase hq hrun hlt hflag (cRR_mem_replyCtrls b)
    (handleAccept_rrNext (s := afterFrame _ s) hphase (congrArg cRR hb))).trans ?_
  rw [loopCheckIfTimed_of_idle rfl, acceptAck_eq, cancelOut_of_running (s := afterFrame _ s) hrun]
  simp [afterFrame, countRx, hb]

end

/-- Settles O38: RR of the other bit is the acknowledgement; RR of `ns` has no rule's effect and no bound is reached. -/
theorem rrFramesAnswerASend : Obligations.RrFramesAnswerASend := by
  intro s b hcoh hq hrec hphase hrun hlt
  have hflag : recNext replies s.recState s.recCtrl flag = ⟨.flag, s.recCtrl, none⟩ :=
    hcoh.recNext_flag (by rw [hphase]; rfl) hrec
  rw [exec_rr]
  refine ⟨fun hb => rxBytes_rrNext hphase hq hrun hlt hflag (eq_not_of_ne hb), fun hb => ?_, rfl⟩
  refine (rxBytes_reply hphase hq hrun hlt hflag (cRR_mem_replyCtrls b)
    (handleAccept_rrSame (s := afterFrame _ s) hphase (congrArg cRR hb))).trans ?_
  rw [loopCheckIfTimed_of_running (s := afterFrame _ s) hlt hrun]
  rfl

/-- Settles O39: the REJ ends the attempt and charges it, and the bound test that follows writes or fails. -/
theorem rejFramesRetransmit : Obligations.RejFramesRetransmit := by
  intro s b hcoh hq hrec hphase hrun hlt
  have hflag : recNext replies s.recState s.recCtrl flag = ⟨.flag, s.recCtrl, none⟩ :=
    hcoh.recNext_flag (by rw [hphase]; rfl) hrec
  have hframe := rxBytes_reply hphase hq hrun hlt hflag (cRej_mem_replyCtrls b)
    (handleAccept_rej (s := afterFrame _ s) hphase b rfl)
  have he : timeoutError (afterReject (afterFrame (cRej b) s)).phase = some .maxRetransmissionsExceeded :=
    timeoutError_of_sendWaitAck hphase
  rw [acceptReject_of_running (s := afterFrame _ s) hrun] at hframe
  rw [exec_rej, hframe]
  refine ⟨fun hmore => ?_, fun hbound => ?_, hframe⟩
  · rw [loopCheckIfTimed_of_stopped he hmore rfl, afterWrite, retxAfter_of_pos (Nat.succ_pos _)]
    simp [afterReject, afterFrame, countRx, hrun]
  · rw [loopCheckIfTimed_of_bound he hbound.ge, afterFail, cancelOut_of_stopped rfl]
    simp [afterReject, afterFrame, countRx]

/-! ## A sequence read by the capture (R88, R95, R104, R226) -/

section
variable {s : State}

/-- Bytes that complete no body only move the capture. -/
theorem rxBytes_of_capFeed {B : Bytes} {r : CapState} {buf : Bytes} {ovf : Bool} (hphase : s.phase = .recvCapture)
    (hq : s.rxq = []) (hfeed : capFeed (bodyCap s.params) s.capState s.capBuf s.capOvf B = (r, buf, ovf, [])) :
    rxBytes B s = .next { s with capState := r, capBuf := buf, capOvf := ovf } := by
  induction B generalizing s with
  | nil =>
    obtain ⟨rfl, rfl, rfl⟩ : s.capState = r ∧ s.capBuf = buf ∧ s.capOvf = ovf := by simpa [capFeed] using hfeed
    rfl
  | cons b B ih =>
    obtain ⟨hr, hbuf, hovf, hbodies⟩ : _ ∧ _ ∧ _ ∧ _ ++ _ = [] := by simpa only [capFeed, Prod.mk.injEq] using hfeed
    obtain ⟨hnone, hrest⟩ := List.append_eq_nil_iff.1 hbodies
    have hbyte : rxInput b s = .next (capWrite (capOut b s) s) := by
      rw [rxInput_capture hphase hq, rxCapture_of_none (Option.toList_eq_nil_iff.1 hnone)]
    rw [rxBytes_cons, hbyte, andThen_next]
    exact ih (s := capWrite (capOut b s) s) hphase hq (Prod.ext hr (Prod.ext hbuf (Prod.ext hovf hrest)))

/-- The capture as RECEIVE starts it and a completed body leaves it (R153, R225). -/
def freshCapture (s : State) : State := { s with capState := .idle, capBuf := [], capOvf := false }

/-- The flag after a body hands it to ProcessBody (R226). -/
theorem rxInput_flag_of_body (hphase : s.phase = .recvCapture) (hq : s.rxq = []) (hbody : s.capState = .body) :
    rxInput flag s =
      .next (processBody s.capBuf s.capOvf (freshCapture s)) := by
  have hout : capOut flag s = ⟨.idle, [], false, some (s.capBuf, s.capOvf)⟩ := by
    rw [capOut, hbody, capNext_body_of_flag rfl]
  rw [rxInput_capture hphase hq, rxCapture_of_some (congrArg CapOut.body hout)]
  rfl

theorem decInfo_infoBody (b : Bit) (P : Bytes) : decInfo (infoBody b P) false = .good b P := decInfo_encInfo b P

variable {b : Bit} {P : Bytes}

/-- A whole I frame within MAX_PAYLOAD is handed to ProcessBody. -/
theorem rxBytes_encInfo (hphase : s.phase = .recvCapture) (hq : s.rxq = [])
    (hopen : s.capState = .idle ∨ (s.capState = .flag ∧ s.capOvf = false))
    (hP : ∀ m, s.params.maxPayload = some m → P.length ≤ m) :
    rxBytes (encInfo b P) s =
      .next (processBody (infoBody b P) false (freshCapture s)) := by
  have hfeed := capFeed_frame (buf := s.capBuf) hopen (infoBody_ne_nil b P) (flag_not_mem_encInfo_inside b P)
    (length_infoBody_le hP b)
  rw [encInfo_eq_infoBody, rxBytes_append_of_next (rxBytes_of_capFeed hphase hq hfeed), rxBytes_singleton]
  exact rxInput_flag_of_body (s := { s with capState := .body, capBuf := infoBody b P, capOvf := false }) hphase hq rfl

/-- An I frame with the other bit than the last is delivered (R232). -/
theorem rxBytes_encInfo_new (hphase : s.phase = .recvCapture) (hq : s.rxq = [])
    (hopen : s.capState = .idle ∨ (s.capState = .flag ∧ s.capOvf = false))
    (hP : ∀ m, s.params.maxPayload = some m → P.length ≤ m) (hb : b ≠ s.lrfn) :
    rxBytes (encInfo b P) s = .next (deliverBody b P (freshCapture s)) := by
  rw [rxBytes_encInfo hphase hq hopen hP, processBody_of_new (s := freshCapture s)
    (decInfo_infoBody b P) hb]

/-- An I frame with the last bit again is acknowledged and not delivered (R231). -/
theorem rxBytes_encInfo_duplicate (hphase : s.phase = .recvCapture) (hq : s.rxq = [])
    (hopen : s.capState = .idle ∨ (s.capState = .flag ∧ s.capOvf = false))
    (hP : ∀ m, s.params.maxPayload = some m → P.length ≤ m) (hb : b = s.lrfn) :
    rxBytes (encInfo b P) s = .next (duplicateBody (freshCapture s)) := by
  rw [rxBytes_encInfo hphase hq hopen hP, processBody_of_duplicate (s := freshCapture s)
    (decInfo_infoBody b P) hb]

end

/-- The two concrete I rows are the I frames of the two bits (R97). -/
theorem exec_info (b : Bit) (P : Bytes) (s : State) :
    exec (if b = 0 then .i0 P else .i1 P) s = rxBytes (encInfo b P) s := by
  rcases eq_zero_or_one b with rfl | rfl <;> rfl

/-- Settles O40: the frame is captured whole, and its bit decides between delivery and acknowledgement alone. -/
theorem informationFramesAreReceived : Obligations.InformationFramesAreReceived := by
  intro s b P hq hphase hopen hP
  rw [exec_info]
  refine ⟨fun hb => ?_, fun hb => ?_, rfl⟩
  · rw [rxBytes_encInfo_new hphase hq hopen hP hb, deliverBody_eq]
    rfl
  · rw [rxBytes_encInfo_duplicate hphase hq hopen hP hb, duplicateBody_eq]
    rfl

/-- A pair inside a body is collected raw. -/
theorem rxBytes_of_body {s : State} {B : Bytes} (hphase : s.phase = .recvCapture) (hq : s.rxq = [])
    (hbody : s.capState = .body) (hB : flag ∉ B)
    (hfits : ∀ n, bodyCap s.params = some n → s.capBuf.length + B.length ≤ n) :
    rxBytes B s = .next { s with capBuf := s.capBuf ++ B } := by
  have hfeed : capFeed (bodyCap s.params) s.capState s.capBuf s.capOvf B = (s.capState, s.capBuf ++ B, s.capOvf, []) := by
    rw [hbody, capFeed_body hB hfits]
  exact rxBytes_of_capFeed hphase hq hfeed

/-- Settles O41: neither byte of a pair is a flag, so the capture collects both; `DESTUFF` reads the pair on its own. -/
theorem stuffingPairsStandForTheirByte : Obligations.StuffingPairsStandForTheirByte := by
  refine ⟨fun s hq hphase hbody hroom => ?_, fun S D hS => ⟨?_, ?_⟩⟩
  · have hfits : ∀ n, bodyCap s.params = some n → s.capBuf.length + 2 ≤ n := by
      intro n hn
      obtain ⟨m, hm, rfl⟩ := Option.map_eq_some_iff.1 hn
      exact hroom m hm
    exact ⟨rxBytes_of_body hphase hq hbody (by decide) hfits, rxBytes_of_body hphase hq hbody (by decide) hfits⟩
  · exact destuff_append hS [esc, escFlag]
  · exact destuff_append hS [esc, escEsc]

/-! ## Whole exchanges (R234(c), R221, R232) -/

theorem execAll_cons_of_next {i : Instr} {rest : List Instr} {s t : State} (h : exec i s = .next t) :
    execAll (i :: rest) s = execAll rest t := by
  rw [execAll, h, andThen_next]

/-- What an accepted RECEIVE leaves (R225). -/
def startCapture (s : State) : State := { freshCapture s with phase := .recvCapture }

/-- What an endpoint that has just delivered a frame looks like (R232). -/
theorem exists_delivered {s : State} {b : Bit} {P : Bytes} (hphase : s.phase = .recvCapture) (hq : s.rxq = [])
    (hopen : s.capState = .idle ∨ (s.capState = .flag ∧ s.capOvf = false))
    (hP : ∀ m, s.params.maxPayload = some m → P.length ≤ m) (hb : b ≠ s.lrfn) :
    ∃ t, rxBytes (encInfo b P) s = .next t ∧ t.phase = .idle ∧ t.rxq = [] ∧ t.sess = s.sess ∧ t.role = s.role ∧
      t.params = s.params ∧ t.lrfn = b ∧ t.nr = ~~~ s.nr ∧
      t.out = s.out ++ [.tx (encSup aRx (cRR (~~~ s.nr))), .done .ok (some P)] := by
  refine ⟨_, rxBytes_encInfo_new hphase hq hopen hP hb, ?_⟩
  rw [deliverBody_eq]
  exact ⟨rfl, hq, rfl, rfl, rfl, rfl, rfl, rfl⟩

/-- Settles O42: the first frame is new and sets `lrfn`, so that after the next RECEIVE the same frame is a
duplicate. -/
theorem sameFrameIsDeliveredOnce : Obligations.SameFrameIsDeliveredOnce := by
  intro s b P hq hphase hcap hsess hrole hb hP
  obtain ⟨t, hfirst, hidle, htq, htsess, htrole, htparams, htlrfn, htnr, htout⟩ :=
    exists_delivered hphase hq (.inl hcap) hP hb
  have hreceive : exec .receiveCmd t = .next (startCapture t) := by
    rw [exec_receiveCmd_of_idle hidle, receiveBody_of_opened (htsess.trans hsess) (htrole.trans hrole)]
    rfl
  have hsecond := rxBytes_encInfo_duplicate (s := startCapture t) rfl htq (.inl rfl) (htparams.symm ▸ hP) htlrfn.symm
  rw [duplicateBody_eq] at hsecond
  have hsame : ∀ u, exec (.iS b P) u = rxBytes (encInfo b P) u := fun _ => rfl
  refine ⟨_, (execAll_cons_of_next (i := .iS b P) ((hsame s).trans hfirst)).trans ((execAll_cons_of_next hreceive).trans
    (execAll_cons_of_next ((hsame _).trans hsecond))), rfl, htnr, htlrfn, ?_⟩
  simp [startCapture, freshCapture, htnr, htout, aRx]

/-- Settles O43: the latched frame is new for the Receiver, and its RR carries the bit that acknowledges it. -/
theorem sendIsDeliveredAndAcknowledged : Obligations.SendIsDeliveredAndAcknowledged := by
  intro T R P hidle hsess hrole hTq hpos hphase hcap hRq hnr hlrfn hPT hPR
  have hsend : exec (.sendCmd P) T = .next (exchangeWaiting .sendWaitAck (encInfo T.ns P) T) := by
    rw [exec_sendCmd_of_idle hidle, sendBody_of_fits hsess hrole (within_eq_true_iff.2 hPT), startTimed_pos _ _ T hpos]
  have hb : T.ns ≠ R.lrfn := by
    rw [hlrfn, hnr]
    generalize T.ns = n
    revert n
    decide
  have hack : ~~~ R.nr = ~~~ T.ns := by rw [hnr]
  obtain ⟨R', hread, hRidle, -, -, -, -, -, hRnr, hRout⟩ := exists_delivered hphase hRq (.inl hcap) hPR hb
  refine ⟨_, R', _, _, hsend, hread, hRidle, hRnr, hRout,
    rxBytes_rrNext (s := exchangeWaiting .sendWaitAck (encInfo T.ns P) T) rfl hTq rfl hpos rfl hack, rfl, hack,
    hRnr.symm, ?_⟩
  simp [exchangeWaiting]
  rfl

end Sys2Proof.Machine

namespace Sys2Proof.Machine

/-! ## The session (R24, R265, R266) -/

/-- The session each wait takes place in (R46(e)). -/
structure SessionFits (s : State) : Prop where
  opening : s.phase = .openTxWaitUa ∨ s.phase = .openRxWaitSet → s.sess = .opening
  transfer : s.phase = .sendWaitAck ∨ s.phase = .recvCapture → s.sess = .opened
  closing : s.phase = .closeTxWaitDisc ∨ s.phase = .closeRxWaitDisc ∨ s.phase = .closeRxWaitUa → s.sess = .closing

theorem Inv.sessionFits {s : State} (h : Inv s) : SessionFits s := ⟨h.opening_iff.1, h.transfer_open, h.closing_iff.1⟩

theorem SessionFits.of_idle {s : State} (h : s.phase = .idle) : SessionFits s := by
  constructor <;> simp [h]

/-- The ways a byte or a bound test ends a wait's session (R24). -/
inductive WaitEnds : Sess → Sess → Prop where
  | opened : WaitEnds .opening .opened
  | closed : WaitEnds .closing .closed
  | failed {q : Sess} (h : q = .opening ∨ q = .opened ∨ q = .closing) : WaitEnds q .failed

section
variable {s t : State}

theorem SessionFits.sess_of_timed (h : SessionFits s) {e : Status} (he : timeoutError s.phase = some e) :
    s.sess = .opening ∨ s.sess = .opened ∨ s.sess = .closing := by
  cases hphase : s.phase <;> rw [hphase] at he <;> cases he
  case openTxWaitUa => exact .inl (h.opening (.inl hphase))
  case sendWaitAck => exact .inr (.inl (h.transfer (.inl hphase)))
  case closeTxWaitDisc => exact .inr (.inr (h.closing (.inl hphase)))
  case closeRxWaitUa => exact .inr (.inr (h.closing (.inr (.inr hphase))))

theorem KeepsSession.sessionFits (h : KeepsSession s t) (hfits : SessionFits s) : SessionFits t := by
  obtain ⟨hopening, htransfer, hclosing⟩ := hfits
  constructor <;> rw [h.phase, h.sess] <;> assumption

/-- One byte, or one bound test, keeps the session or ends the wait. -/
theorem Effect.session (h : Effect s t) (hfits : SessionFits s) :
    SessionFits t ∧ (t.sess = s.sess ∨ (t.phase = .idle ∧ WaitEnds s.sess t.sess)) := by
  cases h with
  | waits os h => exact ⟨h.sessionFits hfits, .inl h.sess⟩
  | reports k c before h => exact ⟨h.sessionFits hfits, .inl h.sess⟩
  | fails e os he sess phase => exact ⟨.of_idle phase, .inr ⟨phase, sess ▸ .failed (hfits.sess_of_timed he)⟩⟩
  | handshake os sess phase =>
    refine ⟨.of_idle phase, .inr ⟨phase, ?_⟩⟩
    obtain ⟨hp, hs⟩ | ⟨hp, hs⟩ := sess
    · rw [hs, hfits.opening hp]
      exact .opened
    · rw [hs, hfits.closing (hp.imp_right .inr)]
      exact .closed
  | acknowledged os before phase sess => exact ⟨.of_idle phase, .inl sess⟩
  | delivers b P c before phase new sess => exact ⟨.of_idle phase, .inl sess⟩
  | answersDisc before ns nr lrfn after =>
    have hclosing := hfits.closing (.inr (.inl before))
    obtain ⟨phase, sess, -, -⟩ | ⟨phase, sess, -, -⟩ := after
    · have hclosing' : t.sess = .closing := sess.trans hclosing
      exact ⟨⟨by simp [phase], by simp [phase], fun _ => hclosing'⟩, .inl sess⟩
    · exact ⟨.of_idle phase, .inr ⟨phase, sess ▸ .failed (.inr (.inr hclosing))⟩⟩

/-- An arrival of any length ends at most one wait. -/
theorem rxBytes_session {B : Bytes} (h : rxBytes B s = .next t) (hfits : SessionFits s) :
    t.sess = s.sess ∨ WaitEnds s.sess t.sess := by
  have hinv := rxBytes_invariant
    (P := fun u => SessionFits u ∧ (u.sess = s.sess ∨ (u.phase = .idle ∧ WaitEnds s.sess u.sess)))
    (fun b u v ⟨hu, hsess⟩ hv => ?_) ⟨hfits, .inl rfl⟩ h
  · exact hinv.2.imp_right And.right
  · by_cases hidle : u.phase = .idle
    · obtain rfl := rxInput_idle_next hidle hv
      exact ⟨.of_idle hidle, hsess⟩
    · have hsame := hsess.resolve_right fun hends => hidle hends.1
      rw [← hsame]
      exact (rxInput_effect hv).2.session hu

theorem expireFlags_sess (s : State) : (expireFlags s).sess = s.sess := by
  unfold expireFlags
  split <;> rfl

theorem startTimed_sess (p : TimedPhase) (F : Bytes) (s : State) :
    (s.ntries = 0 ∧ (startTimed p F s).sess = .failed) ∨ (startTimed p F s).sess = s.sess := by
  obtain ⟨hzero, e, -, h⟩ | ⟨-, h⟩ := startTimed_cases p F s <;> rw [h]
  · exact .inl ⟨hzero, rfl⟩
  · exact .inr rfl

end

/-- What an input does to the session. -/
inductive SessionMove (s t : State) (i : Instr) : Prop where
  | keeps (h : t.sess = s.sess)
  | ends (h : WaitEnds s.sess t.sess)
  | opens (before : s.sess = .closed) (after : t.sess = .opening)
  | closes (before : s.sess = .opened) (after : t.sess = .closing)
  | resets (hi : i = .resetInput) (after : t.sess = .closed)
  | failsToOpen (before : s.sess = .closed) (after : t.sess = .failed) (hi : ∃ d, i = .openCmd .tx 0 d)

theorem SessionMove.of_keeps_or_ends {s t : State} {i : Instr} (h : t.sess = s.sess ∨ WaitEnds s.sess t.sess) :
    SessionMove s t i := h.elim .keeps .ends

theorem CommandEffect.session {s t : State} {i : Instr} (h : CommandEffect s i t) : SessionMove s t i := by
  cases h with
  | nop | refused | receives => exact .keeps rfl
  | opensTx n d hs =>
    obtain ⟨rfl, hfail⟩ | hsame := startTimed_sess .openTxWaitUa (encSup aTx cSet) (openSession .tx n d s)
    · exact .failsToOpen hs hfail ⟨d, rfl⟩
    · exact .opens hs hsame
  | opensRx n d hs => exact .opens hs rfl
  | sends P hs hr =>
    obtain ⟨-, hfail⟩ | hsame := startTimed_sess .sendWaitAck (encInfo s.ns P) s
    · exact .ends (hfail ▸ .failed (.inr (.inl hs)))
    · exact .keeps hsame
  | closesTx hs hr =>
    obtain ⟨-, hfail⟩ | hsame := startTimed_sess .closeTxWaitDisc (encSup aTx cDisc) { s with sess := .closing }
    · exact .ends (hfail ▸ .failed (.inr (.inl hs)))
    · exact .closes hs hsame
  | closesRx hs hr => exact .closes hs rfl

theorem exec_session {s t : State} {i : Instr} (hinv : Inv s) (hi : isInput i = true) (h : exec i s = .next t) :
    SessionMove s t i := by
  cases hc : isCommand i with
  | true => exact (exec_command hc h).2.session
  | false =>
    obtain ⟨B, hB⟩ | ⟨-, rfl⟩ | ⟨-, rfl⟩ | ⟨rfl, rfl⟩ := exec_event hi hc h
    · exact .of_keeps_or_ends (rxBytes_session hB hinv.sessionFits)
    · exact .of_keeps_or_ends (((tickInput_effect s).2.session hinv.sessionFits).2.imp_right And.right)
    · exact .keeps (expireFlags_sess s)
    · exact .resets rfl rfl

theorem WaitEnds.listed {q r : Sess} (h : WaitEnds q r) :
    (q = .opening ∧ r = .opened) ∨ (q = .closing ∧ r = .closed) ∨
      ((q = .opening ∨ q = .opened ∨ q = .closing) ∧ r = .failed) := by
  cases h with
  | opened => exact .inl ⟨rfl, rfl⟩
  | closed => exact .inr (.inl ⟨rfl, rfl⟩)
  | failed h => exact .inr (.inr ⟨h, rfl⟩)

/-- Settles O48: a command moves the session by its own case, an arrival or a bound test by ending a wait. -/
theorem sessionMovesOnlyAsListed : Obligations.SessionMovesOnlyAsListed := by
  intro s t i hinv hi h
  cases exec_session hinv hi h with
  | keeps h => exact .inl h
  | opens before after => exact .inr (.inl ⟨before, after⟩)
  | ends h =>
    obtain hopened | hclosed | hfailed := h.listed
    · exact .inr (.inr (.inl hopened))
    · exact .inr (.inr (.inr (.inr (.inl hclosed))))
    · exact .inr (.inr (.inr (.inr (.inr (.inl hfailed)))))
  | closes before after => exact .inr (.inr (.inr (.inl ⟨before, after⟩)))
  | resets hi after => exact .inr (.inr (.inr (.inr (.inr (.inr (.inl ⟨hi, after⟩))))))
  | failsToOpen before after hi => exact .inr (.inr (.inr (.inr (.inr (.inr (.inr ⟨before, after, hi⟩))))))

theorem Inv.idle_of_failed {s : State} (h : Inv s) (hfailed : s.sess = .failed) : s.phase = .idle := by
  obtain ⟨hopening, htransfer, hclosing⟩ := h.sessionFits
  cases hphase : s.phase <;> simp [hphase, hfailed] at hopening htransfer hclosing ⊢

/-- Settles O49: `FAILED` is in `P_IDLE`, where commands are refused, bytes wait, and neither a read nor an expiry finds
a timer or a bound. -/
theorem failedIsLeftOnlyByReset : Obligations.FailedIsLeftOnlyByReset := by
  intro s t i hinv hfailed hi hreset h
  have hidle := hinv.idle_of_failed hfailed
  cases hc : isCommand i with
  | true =>
    cases (exec_command hc h).2 with
    | nop | refused => rfl
    | opensTx n d hs | opensRx n d hs | sends P hs | receives hs | closesTx hs | closesRx hs =>
      rw [hfailed] at hs
      cases hs
  | false =>
    obtain ⟨B, hB⟩ | ⟨-, rfl⟩ | ⟨-, rfl⟩ | ⟨rfl, -⟩ := exec_event hi hc h
    · rw [rxBytes_of_idle hidle] at hB
      cases hB
      rfl
    · rw [tickInput, loopCheckIfTimed_of_idle hidle]
    · rw [expireFlags_of_stopped (hinv.timerRunning_of_untimed (by rw [hidle]; rfl))]
    · exact absurd rfl hreset

end Sys2Proof.Machine

namespace Sys2Proof.Machine

/-! ## The sequence numbers (R26, R27, R234(b)) -/

/-- How far the sequence numbers can have moved since `s`: not at all, by the acknowledgement of a SEND, or by a delivery;
either of those ends the wait. -/
inductive SequenceMove (s t : State) : Prop where
  | keeps (ns : t.ns = s.ns) (nr : t.nr = s.nr) (lrfn : t.lrfn = s.lrfn)
      (send : t.phase = .sendWaitAck → s.phase = .sendWaitAck) (receive : t.phase = .recvCapture → s.phase = .recvCapture)
  | acknowledged (before : s.phase = .sendWaitAck) (after : t.phase = .idle) (ns : t.ns = ~~~ s.ns) (nr : t.nr = s.nr)
      (lrfn : t.lrfn = s.lrfn) (last : t.out.getLast? = some (.done .ok none))
  | delivered (before : s.phase = .recvCapture) (after : t.phase = .idle) (ns : t.ns = s.ns) (nr : t.nr = ~~~ s.nr)
      (last : ∃ P, t.out.getLast? = some (.done .ok (some P)))

section
variable {s t u : State}

theorem KeepsSession.sequence (h : KeepsSession s t) : SequenceMove s t :=
  .keeps h.ns h.nr h.lrfn (fun hp => h.phase.symm.trans hp) (fun hp => h.phase.symm.trans hp)

theorem Effect.sequence (h : Effect s t) : SequenceMove s t := by
  cases h with
  | waits os h | reports k c before h => exact h.sequence
  | fails e os he sess phase err ns nr lrfn =>
    exact .keeps ns nr lrfn (by simp [phase]) (by simp [phase])
  | handshake os sess phase err ns nr lrfn => exact .keeps ns nr lrfn (by simp [phase]) (by simp [phase])
  | answersDisc before ns nr lrfn after =>
    obtain ⟨phase, -⟩ | ⟨phase, -⟩ := after <;> exact .keeps ns nr lrfn (by simp [phase]) (by simp [phase])
  | acknowledged os before phase sess err ns nr lrfn txf out =>
    exact .acknowledged before phase ns nr lrfn (by rw [out, List.getLast?_concat])
  | delivers b P c before phase new sess err ns nr lrfn txf out =>
    exact .delivered before phase ns nr ⟨P, by simp [out]⟩

/-- After a move in a wait, a byte may move; after one that ended the wait, bytes only queue. -/
theorem SequenceMove.trans_byte {b : Byte} (h : SequenceMove s t) (hu : rxInput b t = .next u) : SequenceMove s u := by
  cases h with
  | keeps ns nr lrfn send receive =>
    cases (rxInput_effect hu).2.sequence with
    | keeps ns' nr' lrfn' send' receive' =>
      exact .keeps (ns'.trans ns) (nr'.trans nr) (lrfn'.trans lrfn) (fun hp => send (send' hp))
        fun hp => receive (receive' hp)
    | acknowledged before after ns' nr' lrfn' last =>
      exact .acknowledged (send before) after (ns ▸ ns') (nr'.trans nr) (lrfn'.trans lrfn) last
    | delivered before after ns' nr' last => exact .delivered (receive before) after (ns'.trans ns) (nr ▸ nr') last
  | acknowledged before after ns nr lrfn last =>
    obtain rfl := rxInput_idle_next after hu
    exact .acknowledged before after ns nr lrfn last
  | delivered before after ns nr last =>
    obtain rfl := rxInput_idle_next after hu
    exact .delivered before after ns nr last

theorem sequenceMove_refl (s : State) : SequenceMove s s := .keeps rfl rfl rfl id id

theorem rxBytes_sequence {B : Bytes} (h : rxBytes B s = .next t) : SequenceMove s t :=
  rxBytes_invariant (P := SequenceMove s) (fun _ _ _ hu hv => hu.trans_byte hv) (sequenceMove_refl s) h

theorem startTimed_sequence (p : TimedPhase) (F : Bytes) (s : State) :
    (startTimed p F s).ns = s.ns ∧ (startTimed p F s).nr = s.nr ∧ (startTimed p F s).lrfn = s.lrfn := by
  obtain ⟨-, e, -, h⟩ | ⟨-, h⟩ := startTimed_cases p F s <;> rw [h] <;> exact ⟨rfl, rfl, rfl⟩

/-- A command but OPEN leaves the sequence numbers. -/
theorem CommandEffect.sequence {i : Instr} (h : CommandEffect s i t) (hopen : ∀ r n d, i ≠ .openCmd r n d) :
    t.ns = s.ns ∧ t.nr = s.nr ∧ t.lrfn = s.lrfn := by
  cases h with
  | nop | refused | receives | closesRx => exact ⟨rfl, rfl, rfl⟩
  | opensTx n d | opensRx n d => exact absurd rfl (hopen _ _ _)
  | sends P => exact startTimed_sequence _ _ s
  | closesTx => exact startTimed_sequence _ _ { s with sess := .closing }

theorem expireFlags_sequence (s : State) :
    (expireFlags s).ns = s.ns ∧ (expireFlags s).nr = s.nr ∧ (expireFlags s).lrfn = s.lrfn := by
  unfold expireFlags
  split <;> exact ⟨rfl, rfl, rfl⟩

/-- An input but OPEN and RESET leaves the sequence numbers, acknowledges a SEND or delivers a frame. -/
theorem exec_sequence {i : Instr} (hi : isInput i = true) (hreset : i ≠ .resetInput)
    (hopen : ∀ r n d, i ≠ .openCmd r n d) (h : exec i s = .next t) :
    (t.ns = s.ns ∧ t.nr = s.nr ∧ t.lrfn = s.lrfn) ∨ SequenceMove s t := by
  cases hc : isCommand i with
  | true => exact .inl ((exec_command hc h).2.sequence hopen)
  | false =>
    obtain ⟨B, hB⟩ | ⟨-, rfl⟩ | ⟨-, rfl⟩ | ⟨rfl, -⟩ := exec_event hi hc h
    · exact .inr (rxBytes_sequence hB)
    · exact .inr (tickInput_effect s).2.sequence
    · exact .inl (expireFlags_sequence s)
    · exact absurd rfl hreset

end

/-- Settles O53: of the three moves, only an acknowledgement changes `ns`, and only a delivery `nr` or `lrfn`. -/
theorem sequenceNumbersMoveOnlyOnSuccess : Obligations.SequenceNumbersMoveOnlyOnSuccess := by
  intro s t i hi hreset hopen h
  obtain ⟨ns, nr, lrfn⟩ | hmove := exec_sequence hi hreset hopen h
  · exact ⟨absurd ns, fun hne => (hne.elim (absurd nr) (absurd lrfn))⟩
  · cases hmove with
    | keeps ns nr lrfn => exact ⟨absurd ns, fun hne => (hne.elim (absurd nr) (absurd lrfn))⟩
    | acknowledged before after ns nr lrfn last =>
      exact ⟨fun _ => ⟨before, after, ns, last⟩, fun hne => (hne.elim (absurd nr) (absurd lrfn))⟩
    | delivered before after ns nr last => exact ⟨absurd ns, fun _ => ⟨before, after, nr, last⟩⟩

/-! ## Outputs are only appended (R69) -/

/-- `t` has the outputs of `s` and then others, each of which satisfies `ok`. -/
def Appends (ok : Output → Prop) (s t : State) : Prop := ∃ os, t.out = s.out ++ os ∧ ∀ o ∈ os, ok o

section
variable {ok : Output → Prop} {s t u : State}

theorem appends_of_out_eq (h : t.out = s.out) : Appends ok s t := ⟨[], by simp [h], by simp⟩

theorem Appends.trans (h : Appends ok s t) (h' : Appends ok t u) : Appends ok s u := by
  obtain ⟨os, hout, hok⟩ := h
  obtain ⟨os', hout', hok'⟩ := h'
  exact ⟨os ++ os', by rw [hout', hout, List.append_assoc], fun o ho => (List.mem_append.1 ho).elim (hok o) (hok' o)⟩

theorem expireFlags_out (s : State) : (expireFlags s).out = s.out := by
  unfold expireFlags
  split <;> rfl

/-! ### The frame of a SEND is latched (R73) -/

/-- What a SEND's wait keeps while it lasts and when it ends: the latched frame, which is all it writes. -/
structure Latched (s t : State) : Prop where
  phase : t.phase = .sendWaitAck ∨ t.phase = .idle
  txf : t.txf = s.txf
  out : Appends (fun o => ∀ F, o = .tx F → F = s.txf) s t

theorem Effect.latched (h : Effect s t) (hphase : s.phase = .sendWaitAck) : Latched s t := by
  have hwrong : ∀ p, s.phase = p → p ≠ .sendWaitAck → False := fun p hp hne => hne (hp.symm.trans hphase)
  cases h with
  | waits os h out hos =>
    refine ⟨.inl (h.phase.trans hphase), h.txf, os, out, fun o ho F hF => ?_⟩
    subst hF
    obtain ⟨h, -⟩ | ⟨d, h⟩ | h := hos _ ho
    · exact Output.tx.inj h
    · cases h
    · cases h
  | fails e os he sess phase err ns nr lrfn txf out hos =>
    refine ⟨.inr phase, txf, os ++ [.done e none], by rw [out, List.append_assoc], fun o ho F hF => ?_⟩
    subst hF
    rcases List.mem_append.1 ho with ho | ho
    · cases hos _ ho
    · simp at ho
  | handshake os sess =>
    obtain ⟨hp | hp, -⟩ | ⟨hp | hp, -⟩ := sess <;> exact (hwrong _ hp (by decide)).elim
  | acknowledged os before phase sess err ns nr lrfn txf out hos =>
    refine ⟨.inr phase, txf, os ++ [.done .ok none], by rw [out, List.append_assoc], fun o ho F hF => ?_⟩
    subst hF
    rcases List.mem_append.1 ho with ho | ho
    · cases hos _ ho
    · simp at ho
  | answersDisc before => exact (hwrong _ before (by decide)).elim
  | reports k c before => exact (hwrong _ before (by decide)).elim
  | delivers b P c before => exact (hwrong _ before (by decide)).elim

theorem rxBytes_latched {B : Bytes} (h : rxBytes B s = .next t) (hphase : s.phase = .sendWaitAck) : Latched s t := by
  refine rxBytes_invariant (P := Latched s) (fun b u v hu hv => ?_)
    ⟨.inl hphase, rfl, appends_of_out_eq rfl⟩ h
  obtain ⟨hphase' | hidle, htxf, hout⟩ := hu
  · obtain ⟨hp, htxf', hout'⟩ := (rxInput_effect hv).2.latched hphase'
    rw [htxf] at htxf' hout'
    exact ⟨hp, htxf', hout.trans hout'⟩
  · obtain rfl := rxInput_idle_next hidle hv
    exact ⟨.inr hidle, htxf, hout⟩

theorem expireFlags_txf (s : State) : (expireFlags s).txf = s.txf := by
  unfold expireFlags
  split <;> rfl

end

/-- Settles O55: in the reply wait a command has no step; bytes and the bound test write the latched frame or none. -/
theorem sendFrameIsLatched : Obligations.SendFrameIsLatched := by
  intro s t i hphase hi hreset h
  have hlatched : t.txf = s.txf ∧ Appends (fun o => ∀ F, o = .tx F → F = s.txf) s t := by
    cases hc : isCommand i with
    | true => exact absurd (hphase.symm.trans (exec_command hc h).1) (by decide)
    | false =>
      obtain ⟨B, hB⟩ | ⟨-, rfl⟩ | ⟨-, rfl⟩ | ⟨rfl, -⟩ := exec_event hi hc h
      · have := rxBytes_latched hB hphase
        exact ⟨this.txf, this.out⟩
      · have := (tickInput_effect s).2.latched hphase
        exact ⟨this.txf, this.out⟩
      · exact ⟨expireFlags_txf s, appends_of_out_eq (expireFlags_out s)⟩
      · exact absurd rfl hreset
  obtain ⟨htxf, os, hout, hos⟩ := hlatched
  exact ⟨htxf, os, hout, fun F hF => hos _ hF F rfl⟩

end Sys2Proof.Machine

namespace Sys2Proof.Machine

/-! ## Every event is answered (R261) -/

/-- Each `EV` of a list of outputs is followed by a supervision frame of the Receiver. -/
def Answered (os : List Output) : Prop := ∀ A k C, os = A ++ .ev k :: C → ∃ c D, C = .tx (encSup aRx c) :: D

theorem answered_of_no_event {os : List Output} (h : ∀ k, .ev k ∉ os) : Answered os := by
  rintro A k C rfl
  exact absurd (List.mem_append_right A List.mem_cons_self) (h k)

theorem answered_report (k : Event) (c : Byte) : Answered [.ev k, .tx (encSup aRx c)] := by
  intro A k' C h
  cases A with
  | nil => exact ⟨c, [], (List.cons.inj h).2.symm⟩
  | cons a A =>
    have htail := (List.cons.inj h).2
    cases A with
    | nil => cases (List.cons.inj htail).1
    | cons a' A => simp at htail

theorem Answered.append {os os' : List Output} (h : Answered os) (h' : Answered os') : Answered (os ++ os') := by
  intro A k C heq
  obtain ⟨A', -, hA'⟩ | ⟨C', hos, hC'⟩ := List.append_eq_append_iff.1 heq
  · exact h' A' k C hA'
  · cases C' with
    | nil => exact h' [] k C hC'.symm
    | cons o C' =>
      obtain ⟨rfl, rfl⟩ := List.cons.inj hC'
      obtain ⟨c, D, rfl⟩ := h A k C' hos
      exact ⟨c, D ++ os', rfl⟩

/-- The outputs since `s`: their events are answered, and there are some only where `s` is in `P_RECV_CAPTURE`. -/
structure EventsAnswered (s t : State) : Prop where
  receive : t.phase = .recvCapture → s.phase = .recvCapture
  out : ∃ os, t.out = s.out ++ os ∧ Answered os ∧ ((∃ k, Output.ev k ∈ os) → s.phase = .recvCapture)

section
variable {s t u : State}

theorem EventsAnswered.of_no_event {os : List Output} (hphase : t.phase = .recvCapture → s.phase = .recvCapture)
    (hout : t.out = s.out ++ os) (hos : ∀ k, .ev k ∉ os) : EventsAnswered s t :=
  ⟨hphase, os, hout, answered_of_no_event hos, fun ⟨k, hk⟩ => absurd hk (hos k)⟩

theorem EventsAnswered.trans (h : EventsAnswered s t) (h' : EventsAnswered t u) : EventsAnswered s u := by
  obtain ⟨hphase, os, hout, hans, hev⟩ := h
  obtain ⟨hphase', os', hout', hans', hev'⟩ := h'
  refine ⟨fun hp => hphase (hphase' hp), os ++ os', by rw [hout', hout, List.append_assoc], hans.append hans', ?_⟩
  rintro ⟨k, hk⟩
  rcases List.mem_append.1 hk with hk | hk
  · exact hev ⟨k, hk⟩
  · exact hphase (hev' ⟨k, hk⟩)

theorem Effect.eventsAnswered (h : Effect s t) : EventsAnswered s t := by
  cases h with
  | waits os h out hos =>
    refine .of_no_event (fun hp => h.phase.symm.trans hp) out fun k hk => ?_
    obtain ⟨h, -⟩ | ⟨d, h⟩ | h := hos _ hk <;> cases h
  | fails e os he sess phase err ns nr lrfn txf out hos =>
    refine .of_no_event (by simp [phase]) (out.trans (List.append_assoc _ _ _)) fun k hk => ?_
    rcases List.mem_append.1 hk with hk | hk
    · cases hos _ hk
    · simp at hk
  | handshake os sess phase err ns nr lrfn txf out hos =>
    refine .of_no_event (by simp [phase]) (out.trans (List.append_assoc _ _ _)) fun k hk => ?_
    rcases List.mem_append.1 hk with hk | hk
    · obtain h | h | ⟨F, h⟩ := hos _ hk <;> cases h
    · simp at hk
  | acknowledged os before phase sess err ns nr lrfn txf out hos =>
    refine .of_no_event (by simp [phase]) (out.trans (List.append_assoc _ _ _)) fun k hk => ?_
    rcases List.mem_append.1 hk with hk | hk
    · cases hos _ hk
    · simp at hk
  | answersDisc before ns nr lrfn after =>
    obtain ⟨phase, -, -, out⟩ | ⟨phase, -, -, out⟩ := after <;>
      exact .of_no_event (by simp [phase]) out (by simp)
  | reports k c before h out =>
    exact ⟨fun _ => before, _, out, answered_report k c, fun _ => before⟩
  | delivers b P c before phase new sess err ns nr lrfn txf out =>
    exact .of_no_event (by simp [phase]) out (by simp)

theorem rxBytes_eventsAnswered {B : Bytes} (h : rxBytes B s = .next t) : EventsAnswered s t :=
  rxBytes_invariant (P := EventsAnswered s) (fun _ _ _ hu hv => hu.trans (rxInput_effect hv).2.eventsAnswered)
    (.of_no_event id (List.append_nil _).symm (by simp)) h

/-! ### What a command emits -/

/-- A timed exchange that starts writes its frame or fails (R171, R182). -/
theorem startTimed_out (p : TimedPhase) (F : Bytes) (s : State) :
    (startTimed p F s).out = s.out ++ [.tx F, .tmrStart s.timeout] ∨
      ∃ e, timeoutError (timedPhase p) = some e ∧ (startTimed p F s).out = s.out ++ [.done e none] := by
  obtain ⟨-, e, he, h⟩ | ⟨-, h⟩ := startTimed_cases p F s <;> rw [h]
  · refine .inr ⟨e, he, ?_⟩
    rw [afterFail, cancelOut_exchangeStart, List.append_nil]
    rfl
  · exact .inl rfl

theorem startTimed_no_event (p : TimedPhase) (F : Bytes) (s : State) :
    ∃ os, (startTimed p F s).out = s.out ++ os ∧ ∀ k, Output.ev k ∉ os := by
  obtain h | ⟨e, -, h⟩ := startTimed_out p F s <;> exact ⟨_, h, by simp⟩

theorem CommandEffect.no_event {i : Instr} (h : CommandEffect s i t) :
    ∃ os, t.out = s.out ++ os ∧ ∀ k, Output.ev k ∉ os := by
  cases h with
  | nop | opensRx | receives | closesRx => exact ⟨[], (List.append_nil _).symm, by simp⟩
  | refused e => exact ⟨_, rfl, by simp⟩
  | opensTx n d => exact startTimed_no_event _ _ (openSession .tx n d s)
  | sends P => exact startTimed_no_event _ _ s
  | closesTx => exact startTimed_no_event _ _ { s with sess := .closing }

end

/-- Settles O51: only a report emits an event, with its frame behind it, and only in the Receiver's capture. -/
theorem everyEventIsAnswered : Obligations.EveryEventIsAnswered := by
  intro s t i hcoh hi h
  have hanswered : ∃ os, t.out = s.out ++ os ∧ Answered os ∧ ((∃ k, Output.ev k ∈ os) → s.phase = .recvCapture) := by
    cases hc : isCommand i with
    | true =>
      obtain ⟨os, hout, hos⟩ := (exec_command hc h).2.no_event
      exact ⟨os, hout, answered_of_no_event hos, fun ⟨k, hk⟩ => absurd hk (hos k)⟩
    | false =>
      have hnone : Answered [] := answered_of_no_event (by simp)
      obtain ⟨B, hB⟩ | ⟨-, rfl⟩ | ⟨-, rfl⟩ | ⟨-, rfl⟩ := exec_event hi hc h
      · exact (rxBytes_eventsAnswered hB).out
      · exact (tickInput_effect s).2.eventsAnswered.out
      · exact ⟨[], by rw [expireFlags_out, List.append_nil], hnone, by simp⟩
      · exact ⟨[], (List.append_nil _).symm, hnone, by simp⟩
  obtain ⟨os, hout, hans, hev⟩ := hanswered
  exact ⟨os, hout, fun hk => ⟨hev hk, hcoh.role_rx (.inr (.inl (hev hk)))⟩, hans⟩

/-! ## The rows that are no inputs (R18), said once for all of them -/

/-- What an accept can do (R193 to R201, R221 to R223). -/
inductive AcceptEffect (s : State) : State → Prop where
  | openTx : AcceptEffect s (acceptOpenTx s)
  | openRx : AcceptEffect s (acceptOpenRx s)
  | closeTx : AcceptEffect s (acceptCloseTx s)
  | closeRxDisc : AcceptEffect s (acceptCloseRxDisc s)
  | closeRxUa : AcceptEffect s (acceptCloseRxUa s)
  | acknowledges : AcceptEffect s (acceptAck s)
  | rejects : AcceptEffect s (acceptReject s)
  | ignores : AcceptEffect s s

/-- What a captured body can do (R227 to R232). -/
inductive BodyEffect (s : State) : State → Prop where
  | rejected (k : Event) : BodyEffect s (rejectBody k s)
  | duplicate : BodyEffect s (duplicateBody s)
  | delivered (b : Bit) (P : Bytes) : BodyEffect s (deliverBody b P s)

/-- What a row that is no input can do. -/
inductive ProcedureEffect (s : State) : Instr → State → Prop where
  | returned (i : Instr) (r : Returned) : ProcedureEffect s i (returns r s)
  | recStep (i : Instr) (r : Returned) (o : RecOut) : ProcedureEffect s i (returns r (recWrite o s))
  | capStep (i : Instr) (r : Returned) (o : CapOut) : ProcedureEffect s i (returns r (capWrite o s))
  | startTimed (p : TimedPhase) (F : Bytes) : ProcedureEffect s (.startTimed p F) (startTimed p F s)
  | loopCheck : ProcedureEffect s .loopCheck (loopCheckIfTimed s)
  | cancelTimer : ProcedureEffect s .cancelTimer (cancelTimer s)
  | fail (e : Status) : ProcedureEffect s (.fail e) (afterFail e s)
  | writeFrame (F : Bytes) : ProcedureEffect s (.writeFrame F) (writeFrame F s)
  | accept (i : Instr) {t : State} (h : AcceptEffect s t) : ProcedureEffect s i t
  | body (i : Instr) {t : State} (h : BodyEffect s t) : ProcedureEffect s i t

section
variable {s t u : State}

theorem eq_of_acceptOnly {want c : Byte} (h : acceptOnly want c u = .next t) : t = u := by
  unfold acceptOnly at h
  split at h
  · exact (Host.Outcome.next.inj h).symm
  · cases h

theorem handleAccept_acceptEffect {c : Byte} (h : handleAccept c s = .next t) : AcceptEffect s t := by
  unfold handleAccept at h
  split at h
  · exact eq_of_acceptOnly h ▸ .openTx
  · exact eq_of_acceptOnly h ▸ .openRx
  · unfold acceptSend at h
    split at h
    · cases h; exact .acknowledges
    · split at h
      · cases h; exact .rejects
      · split at h
        · cases h; exact .ignores
        · cases h
  · exact eq_of_acceptOnly h ▸ .closeTx
  · exact eq_of_acceptOnly h ▸ .closeRxDisc
  · exact eq_of_acceptOnly h ▸ .closeRxUa
  · cases h
  · cases h

theorem processBody_bodyEffect (B : Bytes) (ovf : Bool) (s : State) : BodyEffect s (processBody B ovf s) := by
  cases hdec : decInfo B ovf with
  | headerBad => exact processBody_of_headerBad hdec ▸ .rejected _
  | escapeBad => exact processBody_of_escapeBad hdec ▸ .rejected _
  | checksumBad => exact processBody_of_checksumBad hdec ▸ .rejected _
  | good b P =>
    by_cases hb : b = s.lrfn
    · exact processBody_of_duplicate hdec hb ▸ .duplicate
    · exact processBody_of_new hdec hb ▸ .delivered b P

theorem eq_next_of_inPhase {p : Phase} {r : Res} (h : inPhase p s r = .next t) : r = .next t := by
  unfold inPhase at h
  split at h
  · exact h
  · cases h

theorem eq_of_bodyWith {want got : DecResult} (h : bodyWith want got u = .next t) : t = u := by
  unfold bodyWith at h
  split at h
  · exact (Host.Outcome.next.inj h).symm
  · cases h

/-- A row of one phase with one next state has it. -/
theorem eq_of_inPhase_next {p : Phase} (h : inPhase p s (.next u) = .next t) : t = u :=
  (Host.Outcome.next.inj (eq_next_of_inPhase h)).symm

theorem exec_recStep_effect {b : Byte} (h : exec (.recStep b) s = .next t) : ProcedureEffect s (.recStep b) t := by
  cases hx : expectation s.phase with
  | none => rw [exec_recStep_of_none hx] at h; cases h
  | some x => rw [exec_recStep_of_some hx] at h; cases h; exact .recStep _ _ _

theorem exec_bodyDuplicate_effect {B : Bytes} (h : exec (.bodyDuplicate B) s = .next t) : BodyEffect s t := by
  have h := eq_next_of_inPhase h
  split at h
  · split at h
    · cases h; exact .duplicate
    · cases h
  all_goals cases h

theorem exec_bodyNew_effect {B : Bytes} (h : exec (.bodyNew B) s = .next t) : BodyEffect s t := by
  have h := eq_next_of_inPhase h
  split at h
  · split at h
    · cases h
    · cases h; exact .delivered _ _
  all_goals cases h

theorem exec_procedure {i : Instr} (hi : isInput i = false) (h : exec i s = .next t) : ProcedureEffect s i t := by
  cases i with
  | bcc1 | bcc2 | stuff | destuff | encSup | encInfo | decInfo => cases h; exact .returned _ _
  | recStep b => exact exec_recStep_effect h
  | capStep b => cases h; exact .capStep _ _ _
  | startTimed p F => cases h; exact .startTimed p F
  | loopCheck => cases h; exact .loopCheck
  | cancelTimer => cases h; exact .cancelTimer
  | fail e => rw [exec_fail] at h; cases h; exact .fail e
  | writeFrame F => cases h; exact .writeFrame F
  | handleAccept c => exact .accept _ (handleAccept_acceptEffect h)
  | processBody B ovf => cases h; exact .body _ (processBody_bodyEffect B ovf s)
  | acceptUaOpenTx => exact .accept _ (eq_of_inPhase_next h ▸ .openTx)
  | acceptSetOpenRx => exact .accept _ (eq_of_inPhase_next h ▸ .openRx)
  | acceptDiscCloseTx => exact .accept _ (eq_of_inPhase_next h ▸ .closeTx)
  | acceptDiscCloseRx => exact .accept _ (eq_of_inPhase_next h ▸ .closeRxDisc)
  | acceptUaCloseRx => exact .accept _ (eq_of_inPhase_next h ▸ .closeRxUa)
  | acceptRrNext => exact .accept _ (eq_of_inPhase_next h ▸ .acknowledges)
  | acceptRej b => exact .accept _ (eq_of_inPhase_next h ▸ .rejects)
  | acceptRrSame => exact .accept _ (eq_of_inPhase_next h ▸ .ignores)
  | bodyHeaderBad | bodyEscapeBad | bodyChecksumBad =>
    exact .body _ (eq_of_bodyWith (eq_next_of_inPhase h) ▸ .rejected _)
  | bodyDuplicate B => exact .body _ (exec_bodyDuplicate_effect h)
  | bodyNew B => exact .body _ (exec_bodyNew_effect h)
  | _ => cases hi

end

end Sys2Proof.Machine

namespace Sys2Proof.Machine

/-! ## The configuration is fixed by OPEN (R21 to R23, R16) -/

/-- `t` has the configuration and the parameters of `s`. -/
structure SameConfig (s t : State) : Prop where
  params : t.params = s.params
  role : t.role = s.role
  ntries : t.ntries = s.ntries
  timeout : t.timeout = s.timeout

section
variable {s t : State}

theorem KeepsConfig.sameConfig (h : KeepsConfig s t) : SameConfig s t := ⟨h.params, h.role, h.ntries, h.timeout⟩

theorem expireFlags_sameConfig (s : State) : SameConfig s (expireFlags s) := by
  unfold expireFlags
  split <;> exact ⟨rfl, rfl, rfl, rfl⟩

theorem startTimed_sameConfig (p : TimedPhase) (F : Bytes) (s : State) : SameConfig s (startTimed p F s) := by
  obtain ⟨-, e, -, h⟩ | ⟨-, h⟩ := startTimed_cases p F s <;> rw [h] <;> exact ⟨rfl, rfl, rfl, rfl⟩

theorem cancelTimer_sameConfig (s : State) : SameConfig s (cancelTimer s) := by
  rw [cancelTimer_eq]
  exact ⟨rfl, rfl, rfl, rfl⟩

theorem acceptReject_sameConfig (s : State) : SameConfig s (acceptReject s) := by
  cases hrun : s.timerRunning with
  | true => rw [acceptReject_of_running hrun]; exact ⟨rfl, rfl, rfl, rfl⟩
  | false => rw [acceptReject_of_stopped hrun]; exact ⟨rfl, rfl, rfl, rfl⟩

/-- A command keeps the configuration, or it is an OPEN that starts a session and keeps the parameters. -/
theorem CommandEffect.config {i : Instr} (h : CommandEffect s i t) :
    SameConfig s t ∨ (t.params = s.params ∧ s.sess = .closed ∧ ∃ r n d, i = .openCmd r n d) := by
  cases h with
  | nop | refused | receives | closesRx => exact .inl ⟨rfl, rfl, rfl, rfl⟩
  | opensTx n d hs =>
    have hparams := (startTimed_sameConfig .openTxWaitUa (encSup aTx cSet) (openSession .tx n d s)).params
    exact .inr ⟨hparams, hs, .tx, n, d, rfl⟩
  | opensRx n d hs => exact .inr ⟨rfl, hs, .rx, n, d, rfl⟩
  | sends P => exact .inl (startTimed_sameConfig _ _ s)
  | closesTx =>
    obtain ⟨params, role, ntries, timeout⟩ :=
      startTimed_sameConfig .closeTxWaitDisc (encSup aTx cDisc) { s with sess := .closing }
    exact .inl ⟨params, role, ntries, timeout⟩

theorem AcceptEffect.sameConfig (h : AcceptEffect s t) : SameConfig s t := by
  cases h with
  | openTx => rw [acceptOpenTx_eq]; exact ⟨rfl, rfl, rfl, rfl⟩
  | openRx | ignores => exact ⟨rfl, rfl, rfl, rfl⟩
  | closeTx => rw [acceptCloseTx_eq]; exact ⟨rfl, rfl, rfl, rfl⟩
  | closeRxDisc => exact startTimed_sameConfig _ _ s
  | closeRxUa => rw [acceptCloseRxUa_eq]; exact ⟨rfl, rfl, rfl, rfl⟩
  | acknowledges => rw [acceptAck_eq]; exact ⟨rfl, rfl, rfl, rfl⟩
  | rejects => exact acceptReject_sameConfig s

theorem BodyEffect.sameConfig (h : BodyEffect s t) : SameConfig s t := by
  cases h with
  | rejected k => rw [rejectBody_eq]; exact ⟨rfl, rfl, rfl, rfl⟩
  | duplicate => rw [duplicateBody_eq]; exact ⟨rfl, rfl, rfl, rfl⟩
  | delivered b P => rw [deliverBody_eq]; exact ⟨rfl, rfl, rfl, rfl⟩

theorem ProcedureEffect.sameConfig {i : Instr} (h : ProcedureEffect s i t) : SameConfig s t := by
  cases h with
  | returned | recStep | capStep | fail | writeFrame => exact ⟨rfl, rfl, rfl, rfl⟩
  | startTimed p F => exact startTimed_sameConfig p F s
  | loopCheck => exact (tickInput_effect s).1.sameConfig
  | cancelTimer => exact cancelTimer_sameConfig s
  | accept i h => exact h.sameConfig
  | body i h => exact h.sameConfig

/-- Every row keeps the configuration, but for RESET and an OPEN that starts a session; none writes the parameters. -/
theorem exec_config {i : Instr} (h : exec i s = .next t) :
    SameConfig s t ∨
      (t.params = s.params ∧
        (i = .resetInput ∨ ∃ r n d, i = .openCmd r n d ∧ s.phase = .idle ∧ s.sess = .closed)) := by
  cases hi : isInput i with
  | false => exact .inl (exec_procedure hi h).sameConfig
  | true =>
    cases hc : isCommand i with
    | true =>
      obtain ⟨hidle, heffect⟩ := exec_command hc h
      obtain hsame | ⟨hparams, hsess, r, n, d, hopen⟩ := heffect.config
      · exact .inl hsame
      · exact .inr ⟨hparams, .inr ⟨r, n, d, hopen, hidle, hsess⟩⟩
    | false =>
      obtain ⟨B, hB⟩ | ⟨-, rfl⟩ | ⟨-, rfl⟩ | ⟨hreset, rfl⟩ := exec_event hi hc h
      · exact .inl (rxBytes_keepsConfig hB).sameConfig
      · exact .inl (tickInput_effect s).1.sameConfig
      · exact .inl (expireFlags_sameConfig s)
      · exact .inr ⟨resetRegisters_params s, .inl hreset⟩

end

/-- Settles O54: `exec_config` says which rows write the configuration. -/
theorem configurationIsFixedAtOpen : Obligations.ConfigurationIsFixedAtOpen := by
  intro s t i h
  obtain ⟨params, role, ntries, timeout⟩ | ⟨params, hrow⟩ := exec_config h
  · exact ⟨params, fun hne => (hne.elim (absurd role) (·.elim (absurd ntries) (absurd timeout)))⟩
  · exact ⟨params, fun _ => hrow⟩

end Sys2Proof.Machine

namespace Sys2Proof.Machine

/-! ## `DeviceError` is never produced (R251) -/

/-- From `s` to `t` no `DONE(DeviceError)` is emitted and `err` does not come to hold `DeviceError`. -/
structure NoDeviceError (s t : State) : Prop where
  err : s.err ≠ .deviceError → t.err ≠ .deviceError
  out : Appends (fun o => ∀ P, o ≠ .done .deviceError P) s t

section
variable {s t u : State}

theorem NoDeviceError.trans (h : NoDeviceError s t) (h' : NoDeviceError t u) : NoDeviceError s u :=
  ⟨h'.err ∘ h.err, h.out.trans h'.out⟩

/-- The usual step: `err` is kept, and what is emitted is listed. -/
theorem noDeviceError_of_keeps {os : List Output} (herr : t.err = s.err) (hout : t.out = s.out ++ os)
    (hos : ∀ o ∈ os, ∀ P, o ≠ .done .deviceError P) : NoDeviceError s t :=
  ⟨herr.trans_ne, os, hout, hos⟩

theorem noDeviceError_of_unchanged (herr : t.err = s.err) (hout : t.out = s.out) : NoDeviceError s t :=
  ⟨herr.trans_ne, appends_of_out_eq hout⟩

/-- The state a step starts from may differ from `s` elsewhere. -/
theorem NoDeviceError.of_unchanged (h : NoDeviceError t u) (herr : t.err = s.err) (hout : t.out = s.out) :
    NoDeviceError s u :=
  (noDeviceError_of_unchanged herr hout).trans h

theorem ne_deviceError_of_fatal {e : Status} (h : fatal e = true) : e ≠ .deviceError := by
  rintro rfl
  cases h

theorem cancelOut_ne_done {o : Output} (h : o ∈ cancelOut s) (e : Status) (P : Option Bytes) : o ≠ .done e P := by
  rintro rfl
  unfold cancelOut at h
  split at h <;> simp at h

theorem appends_of_cancel {os : List Output} (hout : t.out = s.out ++ cancelOut s ++ os)
    (hos : ∀ o ∈ os, ∀ P, o ≠ .done .deviceError P) : Appends (fun o => ∀ P, o ≠ .done .deviceError P) s t :=
  ⟨cancelOut s ++ os, hout.trans (List.append_assoc _ _ _), fun o ho P =>
    (List.mem_append.1 ho).elim (cancelOut_ne_done · _ _) (hos o · P)⟩

theorem noDeviceError_of_cancel {os : List Output} (herr : t.err = s.err) (hout : t.out = s.out ++ cancelOut s ++ os)
    (hos : ∀ o ∈ os, ∀ P, o ≠ .done .deviceError P) : NoDeviceError s t :=
  ⟨herr.trans_ne, appends_of_cancel hout hos⟩

/-- A fatal end leaves and emits its own status (R176). -/
theorem noDeviceError_afterFail {e : Status} (h : fatal e = true) (s : State) : NoDeviceError s (afterFail e s) := by
  have he := ne_deviceError_of_fatal h
  exact ⟨fun _ => he, appends_of_cancel (os := [.done e none]) rfl (by simp [he])⟩

theorem Effect.noDeviceError (h : Effect s t) : NoDeviceError s t := by
  cases h with
  | waits os h out hos =>
    refine noDeviceError_of_keeps h.err out fun o ho P => ?_
    obtain ⟨rfl, -⟩ | ⟨d, rfl⟩ | rfl := hos o ho <;> simp
  | fails e os he sess phase err ns nr lrfn txf out hos =>
    have hne := ne_deviceError_of_fatal (fatal_of_timeoutError he)
    refine ⟨fun _ => err ▸ hne, os ++ [.done e none], out.trans (List.append_assoc _ _ _), fun o ho P => ?_⟩
    rcases List.mem_append.1 ho with ho | ho
    · simp [hos o ho]
    · obtain rfl := List.mem_singleton.1 ho
      simp [hne]
  | handshake os sess phase err ns nr lrfn txf out hos =>
    refine noDeviceError_of_keeps err (out.trans (List.append_assoc _ _ _)) fun o ho P => ?_
    rcases List.mem_append.1 ho with ho | ho
    · obtain rfl | rfl | ⟨F, rfl⟩ := hos o ho <;> simp
    · simp [List.mem_singleton.1 ho]
  | acknowledged os before phase sess err ns nr lrfn txf out hos =>
    refine noDeviceError_of_keeps err (out.trans (List.append_assoc _ _ _)) fun o ho P => ?_
    rcases List.mem_append.1 ho with ho | ho
    · simp [hos o ho]
    · simp [List.mem_singleton.1 ho]
  | answersDisc before ns nr lrfn after =>
    obtain ⟨-, -, err, out⟩ | ⟨-, -, err, out⟩ := after
    · exact noDeviceError_of_keeps err out (by simp)
    · exact ⟨fun _ => by simp [err], _, out, by simp⟩
  | reports k c before h out => exact noDeviceError_of_keeps h.err out (by simp)
  | delivers b P c before phase new sess err ns nr lrfn txf out => exact noDeviceError_of_keeps err out (by simp)

theorem rxBytes_noDeviceError {B : Bytes} (h : rxBytes B s = .next t) : NoDeviceError s t :=
  rxBytes_invariant (P := NoDeviceError s) (fun _ _ _ hu hv => hu.trans (rxInput_effect hv).2.noDeviceError)
    (noDeviceError_of_unchanged rfl rfl) h

theorem startTimed_noDeviceError (p : TimedPhase) (F : Bytes) (s : State) : NoDeviceError s (startTimed p F s) := by
  obtain ⟨-, e, he, h⟩ | ⟨-, h⟩ := startTimed_cases p F s <;> rw [h]
  · exact (noDeviceError_afterFail (fatal_of_timeoutError he) (exchangeStart p F s)).of_unchanged rfl rfl
  · exact noDeviceError_of_keeps rfl rfl (by simp)

theorem openSession_noDeviceError (r : Role) (n d : Nat) (s : State) : NoDeviceError s (openSession r n d s) :=
  ⟨by simp [openSession], appends_of_out_eq rfl⟩

theorem CommandEffect.noDeviceError {i : Instr} (h : CommandEffect s i t) : NoDeviceError s t := by
  cases h with
  | nop | receives | closesRx => exact noDeviceError_of_unchanged rfl rfl
  | refused _ e he =>
    have hne : e ≠ .deviceError := by rintro rfl; simp at he
    exact noDeviceError_of_keeps rfl rfl (by simp [hne])
  | opensTx n d => exact (openSession_noDeviceError .tx n d s).trans (startTimed_noDeviceError _ _ _)
  | opensRx n d => exact (openSession_noDeviceError .rx n d s).trans (noDeviceError_of_unchanged rfl rfl)
  | sends P => exact startTimed_noDeviceError _ _ s
  | closesTx => exact (startTimed_noDeviceError _ _ { s with sess := .closing }).of_unchanged rfl rfl

theorem cancelTimer_noDeviceError (s : State) : NoDeviceError s (cancelTimer s) := by
  rw [cancelTimer_eq]
  exact noDeviceError_of_keeps rfl rfl fun o ho P => cancelOut_ne_done ho _ P

theorem expireFlags_err (s : State) : (expireFlags s).err = s.err := by
  unfold expireFlags
  split <;> rfl

theorem AcceptEffect.noDeviceError (h : AcceptEffect s t) : NoDeviceError s t := by
  cases h with
  | openTx => rw [acceptOpenTx_eq]; exact noDeviceError_of_cancel rfl rfl (by simp)
  | openRx => rw [acceptOpenRx_eq]; exact noDeviceError_of_keeps rfl rfl (by simp)
  | closeTx => rw [acceptCloseTx_eq]; exact noDeviceError_of_cancel rfl rfl (by simp)
  | closeRxDisc => exact startTimed_noDeviceError _ _ s
  | closeRxUa => rw [acceptCloseRxUa_eq]; exact noDeviceError_of_cancel rfl rfl (by simp)
  | acknowledges => rw [acceptAck_eq]; exact noDeviceError_of_cancel rfl rfl (by simp)
  | rejects =>
    cases hrun : s.timerRunning with
    | true => rw [acceptReject_of_running hrun]; exact noDeviceError_of_keeps rfl rfl (by simp)
    | false => rw [acceptReject_of_stopped hrun]; exact noDeviceError_of_unchanged rfl rfl
  | ignores => exact noDeviceError_of_unchanged rfl rfl

theorem BodyEffect.noDeviceError (h : BodyEffect s t) : NoDeviceError s t := by
  cases h with
  | rejected k => rw [rejectBody_eq]; exact noDeviceError_of_keeps rfl rfl (by simp)
  | duplicate => rw [duplicateBody_eq]; exact noDeviceError_of_keeps rfl rfl (by simp)
  | delivered b P => rw [deliverBody_eq]; exact noDeviceError_of_keeps rfl rfl (by simp)

/-- A row that is no input; of the statuses `Fail` takes, only the fatal ones are well formed (log entry 28). -/
theorem ProcedureEffect.noDeviceError {i : Instr} (h : ProcedureEffect s i t) (hwf : i.wf = true) : NoDeviceError s t := by
  cases h with
  | returned | recStep | capStep => exact noDeviceError_of_unchanged rfl rfl
  | startTimed p F => exact startTimed_noDeviceError p F s
  | loopCheck => exact (tickInput_effect s).2.noDeviceError
  | cancelTimer => exact cancelTimer_noDeviceError s
  | fail e => exact noDeviceError_afterFail hwf s
  | writeFrame F => exact noDeviceError_of_keeps rfl rfl (by simp)
  | accept i h => exact h.noDeviceError
  | body i h => exact h.noDeviceError

theorem exec_noDeviceError {i : Instr} (hwf : i.wf = true) (h : exec i s = .next t) : NoDeviceError s t := by
  cases hi : isInput i with
  | false => exact (exec_procedure hi h).noDeviceError hwf
  | true =>
    cases hc : isCommand i with
    | true => exact (exec_command hc h).2.noDeviceError
    | false =>
      obtain ⟨B, hB⟩ | ⟨-, rfl⟩ | ⟨-, rfl⟩ | ⟨-, rfl⟩ := exec_event hi hc h
      · exact rxBytes_noDeviceError hB
      · exact (tickInput_effect s).2.noDeviceError
      · exact noDeviceError_of_unchanged (expireFlags_err s) (expireFlags_out s)
      · exact ⟨fun _ => by simp, appends_of_out_eq (resetRegisters_out s)⟩

end

/-- Settles O52: the statuses a row emits are `OK`, the refusals, and the fatal ones of the bound test and of `Fail`. -/
theorem deviceErrorIsNeverProduced : Obligations.DeviceErrorIsNeverProduced := by
  intro s t i hwf herr h
  obtain ⟨hkeeps, os, hout, hos⟩ := exec_noDeviceError hwf h
  exact ⟨hkeeps herr, os, hout, fun P hP => hos _ hP P rfl⟩

end Sys2Proof.Machine

namespace Sys2Proof.Machine

/-! ## A timed exchange without an answer (R178)

A round is an expiry and the read after it. A round below the bound writes the frame again (`Unanswered.round_of_lt`), the
round that reaches the bound fails (`Unanswered.round_of_bound`). -/

/-- What a read shows the recognizer: nothing when it is empty. -/
def readOut (x : Expectation) (s : State) : Option Byte → RecOut
  | none => ⟨s.recState, s.recCtrl, none⟩
  | some b => recOut x b s

/-- What the expiry of a running attempt leaves (R173). -/
def afterExpiry (s : State) : State := { s with timerRunning := false, timedOut := true, retryCnt := s.retryCnt + 1 }

/-- The state at the bound test that follows an expiry and a read. -/
def afterRead (x : Expectation) (r : Option Byte) (s : State) : State := recWrite (readOut x s r) (afterExpiry s)

/-- A running attempt whose phase expects `x` and fails with `e`, where the reads to come complete no frame. -/
structure Unanswered (x : Expectation) (e : Status) (rs : List (Option Byte)) (s : State) : Prop where
  expects : expectation s.phase = some x
  timed : timeoutError s.phase = some e
  running : s.timerRunning = true
  silent : (recFeed x s.recState s.recCtrl (bytesRead rs)).2.2 = []
  queue : bytesRead rs ≠ [] → s.rxq = []

/-- `t` is `s` after `n` more attempts, with the frame written at the start of each. -/
structure Retried (s : State) (n : Nat) (t : State) : Prop where
  phase : t.phase = s.phase
  retryCnt : t.retryCnt = s.retryCnt + n
  running : t.timerRunning = true
  out : t.out = s.out ++ (List.replicate n [Output.tx s.txf, .tmrStart s.timeout]).flatten
  counts : s.params.cntW = none → t.cntTxFrames = s.cntTxFrames + n ∧ t.cntRetx = s.cntRetx + n

section
variable {x : Expectation} {e : Status} {r : Option Byte} {rs : List (Option Byte)} {s t : State} {n : Nat}

theorem accept_eq_none_of_silent {k : RecState} {c b : Byte} {B : Bytes} (h : (recFeed x k c (b :: B)).2.2 = []) :
    (recNext x k c b).accept = none ∧ (recFeed x (recNext x k c b).state (recNext x k c b).ctrl B).2.2 = [] := by
  obtain ⟨haccept, hrest⟩ := List.append_eq_nil_iff.1 h
  exact ⟨Option.toList_eq_nil_iff.1 haccept, hrest⟩

/-- What the first read leaves to the later ones. -/
theorem Unanswered.silent_tail (h : Unanswered x e (r :: rs) s) :
    (recFeed x (readOut x s r).state (readOut x s r).ctrl (bytesRead rs)).2.2 = [] := by
  cases r with
  | none => exact h.silent
  | some b => exact (accept_eq_none_of_silent h.silent).2

theorem Unanswered.queue_tail (h : Unanswered x e (r :: rs) s) : bytesRead rs ≠ [] → s.rxq = [] := by
  cases r with
  | none => exact h.queue
  | some b => exact fun _ => h.queue (List.cons_ne_nil _ _)

/-- One round: the expiry ends the attempt, the read moves the recognizer, and the bound is tested. -/
theorem Unanswered.execAll_round (h : Unanswered x e (r :: rs) s) :
    execAll (expiries (r :: rs)) s = execAll (expiries rs) (loopCheckIfTimed (afterRead x r s)) := by
  have hexpire : exec .expire s = .next (afterExpiry s) :=
    (exec_expire s).trans (congrArg _ (expireFlags_of_running h.running))
  rw [expiries, execAll_cons_of_next hexpire]
  cases r with
  | none => exact execAll_cons_of_next (exec_tick (afterExpiry s))
  | some b =>
    have hread : rxInput b (afterExpiry s) = rxSupervision x b (afterExpiry s) :=
      rxInput_supervision (s := afterExpiry s) h.expects (h.queue (List.cons_ne_nil _ _)) b
    have hsilent : (recOut x b (afterExpiry s)).accept = none := (accept_eq_none_of_silent h.silent).1
    exact execAll_cons_of_next (hread.trans (rxSupervision_none hsilent))

theorem Unanswered.round_of_lt (h : Unanswered x e (r :: rs) s) (hlt : s.retryCnt + 1 < s.ntries) :
    execAll (expiries (r :: rs)) s = execAll (expiries rs) (afterWrite (afterRead x r s)) := by
  rw [h.execAll_round, loopCheckIfTimed_of_stopped (s := afterRead x r s) h.timed hlt rfl]

theorem Unanswered.round_of_bound (h : Unanswered x e (r :: rs) s) (hbound : s.ntries ≤ s.retryCnt + 1) :
    execAll (expiries (r :: rs)) s = execAll (expiries rs) (afterFail e (afterRead x r s)) := by
  rw [h.execAll_round, loopCheckIfTimed_of_bound (s := afterRead x r s) h.timed hbound]

theorem Unanswered.nextAttempt (h : Unanswered x e (r :: rs) s) : Unanswered x e rs (afterWrite (afterRead x r s)) :=
  ⟨h.expects, h.timed, rfl, h.silent_tail, h.queue_tail⟩

theorem retried_zero (h : s.timerRunning = true) : Retried s 0 s := ⟨rfl, rfl, h, by simp, fun _ => ⟨rfl, rfl⟩⟩

/-- A new attempt and then `n` more. -/
theorem Retried.succ (h : Retried (afterWrite (afterRead x r s)) n t) : Retried s (n + 1) t where
  phase := h.phase
  retryCnt := h.retryCnt.trans (by rw [Nat.add_comm n 1]; exact Nat.add_assoc _ _ _)
  running := h.running
  out := by
    rw [h.out, List.replicate_succ, List.flatten_cons, ← List.append_assoc]
    rfl
  counts hcnt := by
    obtain ⟨htx, hretx⟩ := h.counts hcnt
    have hwritten : (afterWrite (afterRead x r s)).cntTxFrames = s.cntTxFrames + 1 := bump_unbounded hcnt _
    have hretried : (afterWrite (afterRead x r s)).cntRetx = s.cntRetx + 1 :=
      (retxAfter_of_pos (s := afterRead x r s) (Nat.succ_pos _)).trans (bump_unbounded hcnt _)
    omega

/-- Below the bound every round is a new attempt. -/
theorem Unanswered.execAll_of_lt (h : Unanswered x e rs s) (hlt : s.retryCnt + rs.length < s.ntries) :
    ∃ t, execAll (expiries rs) s = .next t ∧ Retried s rs.length t := by
  induction rs generalizing s with
  | nil => exact ⟨s, rfl, retried_zero h.running⟩
  | cons r rs ih =>
    rw [List.length_cons] at hlt
    rw [h.round_of_lt (by omega)]
    obtain ⟨t, hexec, hretried⟩ := ih h.nextAttempt (by show s.retryCnt + 1 + rs.length < s.ntries; omega)
    exact ⟨t, hexec, hretried.succ⟩

/-- The round that reaches the bound ends the exchange, after new attempts in the rounds before it. -/
theorem Unanswered.execAll_of_bound (h : Unanswered x e (r :: rs) s) (hbound : s.retryCnt + rs.length + 1 = s.ntries) :
    ∃ r' v, execAll (expiries (r :: rs)) s = .next (afterFail e (afterRead x r' v)) ∧ Retried s rs.length v := by
  induction rs generalizing r s with
  | nil => exact ⟨r, s, h.round_of_bound hbound.ge, retried_zero h.running⟩
  | cons q rs ih =>
    rw [List.length_cons] at hbound
    rw [h.round_of_lt (by omega)]
    obtain ⟨r', v, hexec, hretried⟩ := ih h.nextAttempt (by show s.retryCnt + 1 + rs.length + 1 = s.ntries; omega)
    exact ⟨r', v, hexec, hretried.succ⟩

end

/-- The first attempt of a timed exchange, of which the reads to come complete no frame (R171). -/
theorem unanswered_exchangeWaiting {s : State} {p : TimedPhase} {F : Bytes} {x : Expectation} {e : Status}
    {rs : List (Option Byte)} (hx : expectation (timedPhase p) = some x) (he : timeoutError (timedPhase p) = some e)
    (hsilent : (recFeed x .idle 0x00 (bytesRead rs)).2.2 = []) (hq : bytesRead rs ≠ [] → s.rxq = []) :
    Unanswered x e rs (exchangeWaiting p F s) := ⟨hx, he, rfl, hsilent, hq⟩

section
variable {s t : State} {p : TimedPhase} {F : Bytes} {n : Nat}

theorem Retried.retryCnt_exchange (h : Retried (exchangeWaiting p F s) n t) : t.retryCnt = n :=
  h.retryCnt.trans (Nat.zero_add n)

/-- The first write and those of the `n` attempts after it. -/
theorem Retried.out_exchange (h : Retried (exchangeWaiting p F s) n t) :
    t.out = s.out ++ (List.replicate (n + 1) [Output.tx F, Output.tmrStart s.timeout]).flatten := by
  rw [h.out, List.replicate_succ, List.flatten_cons, ← List.append_assoc]
  rfl

theorem Retried.counts_exchange (h : Retried (exchangeWaiting p F s) n t) (hcnt : s.params.cntW = none) :
    t.cntTxFrames = s.cntTxFrames + (n + 1) ∧ t.cntRetx = s.cntRetx + n := by
  obtain ⟨htx, hretx⟩ := h.counts hcnt
  have hfirst : (exchangeWaiting p F s).cntTxFrames = s.cntTxFrames + 1 := bump_unbounded hcnt _
  exact ⟨by omega, hretx⟩

end

/-- Settles O18: the first write, then a new attempt for each round below the bound; the round at the bound fails. -/
theorem frameIsWrittenExactlyNtriesTimes : Obligations.FrameIsWrittenExactlyNtriesTimes := by
  intro s p F x rs hpos hx hsilent hq
  obtain ⟨e, he⟩ := isTimed_iff.1 (isTimed_timedPhase p)
  have hrun := unanswered_exchangeWaiting (F := F) hx he hsilent hq
  have hexec : execAll (.startTimed p F :: expiries rs) s = execAll (expiries rs) (exchangeWaiting p F s) :=
    execAll_cons_of_next ((exec_startTimed p F s).trans (congrArg _ (startTimed_pos p F s hpos)))
  rw [hexec]
  refine ⟨fun hlt => ?_, fun hlen => ?_⟩
  · obtain ⟨t, ht, hr⟩ := hrun.execAll_of_lt (by show 0 + rs.length < s.ntries; omega)
    exact ⟨t, ht, hr.phase, hr.retryCnt_exchange, hr.running, hr.out_exchange, hr.counts_exchange⟩
  · obtain _ | ⟨r, rs⟩ := rs
    · exact absurd hlen (Nat.ne_of_lt hpos)
    · rw [List.length_cons] at hlen
      obtain ⟨r', v, ht, hr⟩ := hrun.execAll_of_bound (by show 0 + rs.length + 1 = s.ntries; omega)
      refine ⟨_, e, he, ht, rfl, rfl, rfl, ?_, ?_, fun hcnt => ?_⟩
      · exact (congrArg (· + 1) hr.retryCnt_exchange).trans hlen
      · rw [← hlen, ← hr.out_exchange]
        exact congrArg (· ++ _) (List.append_nil v.out)
      · rw [← hlen]
        exact hr.counts_exchange hcnt

end Sys2Proof.Machine
